-- ==== Sys2Proof/Word.lean ====
section
/-! DEFINITION. The number and byte types of the BPC (spec/00_scope.md rules R5, R6; spec/40_numerics.md rule R80). -/

namespace Sys2Proof

/-- One byte on the bus, 0 to 255 (R6). -/
abbrev Byte := BitVec 8

/-- An 8-bit register address of the sensor's register space (R40, `ADDR_W` of R5). -/
abbrev Addr := BitVec 8

/-- `NUM`: the exact rationals (R80, 92_eei_decisions.md D2; assumption 1). -/
abbrev NUM := Rat

end Sys2Proof
end

