-- ==== Sys2Proof/Config.lean ====
section
/-! DEFINITION. The parameters of spec/00_scope.md rule R5, the words of the abstract bus capability
(spec/20_memory.md rules R40, R41, R43), and the bus oracle's free answers. -/

namespace Sys2Proof

/-- One bus transaction as the block asks for it (R7): a read of `n` bytes starting at a register address, or a
batch write whose byte `j` goes to register address `addr + j`. -/
inductive Request where
  | read (addr : Addr) (n : Nat)
  | write (addr : Addr) (bytes : List Byte)
  deriving DecidableEq, Repr

/-- What the environment answers to one transaction (R41): failure, or success with the bytes read (a successful
write carries none; whatever stands there is ignored). -/
inductive Answer where
  | failed
  | ok (bytes : List Byte)
  deriving DecidableEq, Repr

/-- One finished transaction in the bus's history (R50): the device it was addressed to (R43), what was asked and
what came back. -/
structure Transaction where
  device : Byte
  request : Request
  answer : Answer
  deriving DecidableEq, Repr

namespace Config

/-- `NRAW`, the number of raw calibration registers (R5). -/
def nRaw : Nat := 11

/-- `NCOEF`, the number of coefficient registers (R5). -/
def nCoef : Nat := 16

/-- `RAW_W`, the width in bits of a raw calibration register (R5). -/
def rawW : Nat := 16

/-- `DEV_ADDR`, the one device every transaction is addressed to (R43, R5). -/
def devAddr : Byte := 0x77#8

/-- `OP_W`, the width of the host's operation code (R5, 92_eei_decisions.md D3). -/
def opW : Nat := 3

/-- `OSS_W`, the width of the oversampling operand (R5, 92_eei_decisions.md D4). -/
def ossW : Nat := 32

/-- `TU_W`, the width of the raw temperature count (R5). -/
def tuW : Nat := 16

/-- `UP_W`, the width of the raw pressure count (R5). -/
def upW : Nat := 24

/-- `rnd` of R5: the rounding of stored coefficients and returned readings into a result format. Under
`NUM` = ℚ the spec decides the identity (92_eei_decisions.md D2; assumption 1). -/
def rnd (q : NUM) : NUM := q

/-- FREE VALUE (R41, 93_implementation_defined.md U6; assumption 2): what the bus oracle answers to a read of `n`
bytes at `addr`, after the given history of transactions: failure (`none`) or any `n` bytes. -/
opaque freeRead (history : List Transaction) (addr : Addr) (n : Nat) : Option (Vector Byte n)

/-- FREE VALUE (R41, 93_implementation_defined.md U6; assumption 2): whether the bus oracle accepts a write of
`bytes` at `addr`, after the given history of transactions. -/
opaque freeWrite (history : List Transaction) (addr : Addr) (bytes : List Byte) : Bool

end Config

end Sys2Proof
end

