-- ==== Sys2Proof/Syntax.lean ====
section
/-! DEFINITION. The operations of the BPC: one constructor of `Instr` for each row of spec/opcode_table.json, and the
forms in which they are presented (spec/30_encoding.md rules R60 to R64). -/

namespace Sys2Proof

/-- The operations. The first six are the host operations of R61; the last five are the command bytes of R64, each
an instruction of its own (assumption 9). -/
inductive Instr where
  /-- LOAD, `load()` (R110). -/
  | load
  /-- START_T, `start_temperature()` (R130). -/
  | startT
  /-- READ_T, `read_temperature()` (R133). -/
  | readT
  /-- START_P, `start_pressure(oss)`; `oss` is any signed integer of its width (R137, R63). -/
  | startP (oss : Int)
  /-- READ_P, `read_pressure(t_in)` (R140, R141). -/
  | readP (tIn : NUM)
  /-- CLASSIFY, `classify(p_in)` (R160). -/
  | classify (pIn : NUM)
  /-- CMD_TEMPERATURE, command byte 0x2E (R64). -/
  | cmdTemperature
  /-- CMD_PRESSURE_OSS0, command byte 0x34 (R64). -/
  | cmdPressureOss0
  /-- CMD_PRESSURE_OSS1, command byte 0x74 (R64). -/
  | cmdPressureOss1
  /-- CMD_PRESSURE_OSS2, command byte 0xB4 (R64). -/
  | cmdPressureOss2
  /-- CMD_PRESSURE_OSS3, command byte 0xF4 (R64). -/
  | cmdPressureOss3
  deriving DecidableEq, Repr

/-- The operation record of R60: the packed word (`op` in bits 2:0, `oss` in bits 39:8) and the two separate operand
ports of type `NUM`. -/
structure OpRecord where
  word : BitVec 40
  tIn : NUM
  pIn : NUM
  deriving DecidableEq, Repr

/-- An instruction as it is presented: an operation record (format OP of the table), or one byte of format
CTRL_BYTE. -/
inductive Encoded where
  | op (record : OpRecord)
  | ctrlByte (byte : Byte)
  deriving DecidableEq, Repr

/-- Why a presented form selects no instruction. -/
inductive DecodeError where
  /-- `op` = 6 or 7 (R62). -/
  | reservedOpcode (op : BitVec 3)
  /-- A byte that is none of the five command bytes of R64. -/
  | notACommandByte (byte : Byte)
  deriving DecidableEq, Repr

end Sys2Proof
end

