-- ==== Sys2Proof/WellFormed.lean ====
section
/-! DEFINITION. Which terms of `Instr` are instructions: the operands lie in the ranges their fields have
(spec/30_encoding.md rules R60, R63, R66). -/

namespace Sys2Proof

/-- `oss` is a two's-complement integer of `OSS_W` = 32 bits (R60, R63). Every other operand is a value of `NUM`, any
rational number (R66), so nothing else can be ill-formed. -/
def Instr.wellFormed : Instr → Bool
  | .load => true
  | .startT => true
  | .readT => true
  | .startP oss => decide (-2147483648 ≤ oss) && decide (oss ≤ 2147483647)
  | .readP _ => true
  | .classify _ => true
  | .cmdTemperature => true
  | .cmdPressureOss0 => true
  | .cmdPressureOss1 => true
  | .cmdPressureOss2 => true
  | .cmdPressureOss3 => true

end Sys2Proof
end

