-- ==== Sys2Proof/Decode.lean ====
section
/-! DEFINITION. The decoder and the encoder (spec/30_encoding.md rules R60 to R64), and the decoder read through the bit
numbering of spec/opcode_table.json. -/

namespace Sys2Proof

/-- The field `op`, bits 2:0 of the packed word (R60). -/
def opField (word : BitVec 40) : BitVec 3 := word.extractLsb' 0 3

/-- The field `oss`, bits 39:8 of the packed word, two's complement (R60, R63). -/
def ossField (word : BitVec 40) : Int := (word.extractLsb' 8 32).toInt

/-- An operation record selects its operation by `op` alone; a field the operation does not use is ignored
(R60, R61). Codes 6 and 7 select none (R62). Bits 7:3 belong to no field and are not looked at (assumption 10). -/
def decodeRecord (r : OpRecord) : Except DecodeError Instr :=
  match opField r.word with
  | 0#3 => .ok .load
  | 1#3 => .ok .startT
  | 2#3 => .ok .readT
  | 3#3 => .ok (.startP (ossField r.word))
  | 4#3 => .ok (.readP r.tIn)
  | 5#3 => .ok (.classify r.pIn)
  | 6#3 => .error (.reservedOpcode 6#3)
  | op => .error (.reservedOpcode op)

/-- The command bytes of R64; "No other byte is ever written by the block". -/
def decodeCommandByte (b : Byte) : Except DecodeError Instr :=
  match b with
  | 0x2E#8 => .ok .cmdTemperature
  | 0x34#8 => .ok .cmdPressureOss0
  | 0x74#8 => .ok .cmdPressureOss1
  | 0xB4#8 => .ok .cmdPressureOss2
  | 0xF4#8 => .ok .cmdPressureOss3
  | other => .error (.notACommandByte other)

/-- The decoder: total, and rejecting by name. -/
def decode : Encoded → Except DecodeError Instr
  | .op r => decodeRecord r
  | .ctrlByte b => decodeCommandByte b

/-- An operation record with the given code and no operand (R60, R61). -/
def plainRecord (op : BitVec 3) : OpRecord :=
  { word := 0#37 ++ op, tIn := 0, pIn := 0 }

/-- The encoder, from the tables of R60, R61 and R64; fields an operation does not use are 0. -/
def encode : Instr → Encoded
  | .load => .op (plainRecord 0#3)
  | .startT => .op (plainRecord 1#3)
  | .readT => .op (plainRecord 2#3)
  | .startP oss => .op { plainRecord 3#3 with word := BitVec.ofInt 32 oss ++ 0#5 ++ 3#3 }
  | .readP t => .op { plainRecord 4#3 with tIn := t }
  | .classify p => .op { plainRecord 5#3 with pIn := p }
  | .cmdTemperature => .ctrlByte 0x2E#8
  | .cmdPressureOss0 => .ctrlByte 0x34#8
  | .cmdPressureOss1 => .ctrlByte 0x74#8
  | .cmdPressureOss2 => .ctrlByte 0xB4#8
  | .cmdPressureOss3 => .ctrlByte 0xF4#8

/-- The forms the encoder writes: every bit and port an operation does not use is 0 (R60). -/
def canonical : Encoded → Bool
  | .op r =>
    decide (r.word.extractLsb' 3 5 = 0#5) &&
    (decide (opField r.word = 3#3) || decide (r.word.extractLsb' 8 32 = 0#32)) &&
    (decide (opField r.word = 4#3) || decide (r.tIn = 0)) &&
    (decide (opField r.word = 5#3) || decide (r.pIn = 0))
  | .ctrlByte _ => true

/-- A word of the opcode table as it is presented to the block. The table holds two formats on one numbering: a word
of one byte that IS one of the five command bytes is read in format CTRL_BYTE, every other word is the packed word
of an operation record with both NUM ports at 0 (assumption 10). Bits above `nbits` are 0. -/
def tableEncoded (nbits w : Nat) : Encoded :=
  match decide (nbits ≤ 8), decodeCommandByte (BitVec.ofNat 8 (w % 2 ^ nbits)) with
  | true, .ok _ => .ctrlByte (BitVec.ofNat 8 (w % 2 ^ nbits))
  | _, _ => .op { word := BitVec.ofNat 40 (w % 2 ^ nbits), tIn := 0, pIn := 0 }

/-- The instruction the decoder reads from a word of the opcode table (the host's entry point). -/
def decodeTableWord (nbits w : Nat) : Option Instr :=
  match decode (tableEncoded nbits w) with
  | .ok i => some i
  | .error _ => none

end Sys2Proof
end

