-- ==== Sys2Proof/Machine/State.lean ====
section
/-! DEFINITION. The state of the BPC (spec/10_state.md), with the host's pending inputs and the bus's answers and history
as plain data, the reasons an operation is refused, and the state after reset (R31). -/

namespace Sys2Proof.Machine

/-- The two measurement kinds (R9, R26). -/
inductive Kind where
  | T
  | P
  deriving DecidableEq, Repr

/-- The protocol states of one kind (R26, R146). -/
inductive SeqState where
  | idle
  /-- Held only inside a START operation, never between operations (R147). -/
  | awaitingStart
  | conversionPending
  | resultReady
  deriving DecidableEq, Repr

/-- The status an operation reports (R68, R170). -/
inductive Status where
  | ok
  | busTransportError
  | calibrationInvalid
  | computationError
  deriving DecidableEq, Repr

/-- The five pressure bands (R69). -/
inductive Band where
  | veryLow
  | low
  | normal
  | high
  | veryHigh
  deriving DecidableEq, Repr

/-- The result field `raw`: the 16-bit temperature count or the 24-bit pressure count (R67, R71; assumption 17). -/
inductive RawCount where
  | tu (count : BitVec 16)
  | up24 (count : BitVec 24)
  deriving DecidableEq, Repr

/-- The result record (R67). A field has a value only where R67 says so. -/
structure Result where
  status : Status
  waitMs : Option Nat := none
  raw : Option RawCount := none
  value : Option NUM := none
  band : Option Band := none
  deriving DecidableEq, Repr

/-- The file `RAW` of eleven 16-bit registers (R20), each holding the decoded integer of its range column (R112;
assumption 16). -/
structure RawCal where
  ac1 : Int
  ac2 : Int
  ac3 : Int
  ac4 : Int
  ac5 : Int
  ac6 : Int
  vb1 : Int
  vb2 : Int
  mb : Int
  mc : Int
  md : Int
  deriving DecidableEq, Repr

/-- The thirteen calibration-dependent registers of the file `COEF` (R22). `p0`, `p1`, `p2` are hardwired (R23) and
need no storage: `coefValue` of Machine/Ops.lean reads all sixteen. -/
structure Coefs where
  c3 : NUM
  c4 : NUM
  b1 : NUM
  c5 : NUM
  c6 : NUM
  mc : NUM
  md : NUM
  x0 : NUM
  x1 : NUM
  x2 : NUM
  y0 : NUM
  y1 : NUM
  y2 : NUM
  deriving DecidableEq, Repr

/-- The names of the sixteen coefficient registers, their only addresses (R22). -/
inductive CoefName where
  | c3 | c4 | b1 | c5 | c6 | mc | md | x0 | x1 | x2 | y0 | y1 | y2 | p0 | p1 | p2
  deriving DecidableEq, Repr

/-- The bus as the block meets it: the environment's answers to the next transactions, oldest first (R41), and the
history of finished transactions, oldest first (R50). -/
structure Bus where
  answers : List Answer
  trace : List Transaction
  deriving DecidableEq, Repr

/-- How long the host waits in the pseudo-operation WAIT (R72): a number of milliseconds, or the `wait_ms` it was
just handed, as in the expansions of MEASURE_T and MEASURE_P. -/
inductive WaitLength where
  | ms (n : Nat)
  | returned
  deriving DecidableEq, Repr

/-- What the host does next (R204; assumption 4). -/
inductive HostInput where
  /-- The host presents an operation. -/
  | present (e : Encoded)
  /-- The environment step `elapse(k)` (R148). -/
  | elapse (k : Kind)
  /-- The pseudo-operation WAIT (R72). -/
  | wait (k : Kind) (d : WaitLength)
  /-- The block is reset (R190, R191). -/
  | reset
  /-- The host presents an operation while the previous one executes (R181 d, R182). -/
  | presentDuring (e : Encoded)
  deriving DecidableEq, Repr

/-- The whole state. `raw` and `coef` are `none` exactly while the registers "hold no value" (R28), which is the
spec's own value for them at reset (R31; assumption 11). -/
structure State where
  /-- `RAW[0..10]` (R20). -/
  raw : Option RawCal
  /-- `COEF.c3` to `COEF.y2` (R22). -/
  coef : Option Coefs
  /-- `cal_loaded` (R24). -/
  calLoaded : Bool
  /-- `cal_valid` (R25). -/
  calValid : Bool
  /-- `seq[T]` (R26). -/
  seqT : SeqState
  /-- `seq[P]` (R26). -/
  seqP : SeqState
  /-- The result record of the last operation; `none` when no operation has ended yet (R31, R67). -/
  result : Option Result
  /-- The host's knowledge: the `wait_ms` of the latest successful START_T (assumption 6). -/
  startedWaitT : Option Nat
  /-- The host's knowledge: the `wait_ms` of the latest successful START_P (assumption 6). -/
  startedWaitP : Option Nat
  /-- The host's pending inputs, oldest first (assumption 4). -/
  inputs : List HostInput
  /-- The bus (assumption 2). -/
  bus : Bus
  deriving DecidableEq, Repr

/-- A step of this machine never stops with a fault: the block "has no traps" and every error is a value of the
result record (R176, R170; assumption 20). -/
inductive Fault where
  deriving DecidableEq, Repr

/-- Why the spec gives an operation no meaning (R181). Every one is safe: a run that meets it ends, and nothing is
claimed about what follows. -/
inductive Refusal where
  /-- An instruction whose meaning is not written: raised by no arm of `exec` in this model. Safe. -/
  | notModelled (mnemonic : String)
  /-- Raised by the step on an operation record with `op` = 6 or 7 (R62, R181 a). Safe. -/
  | reservedOpcode (op : BitVec 3)
  /-- Raised by the step on a byte of format CTRL_BYTE that is no command byte (R64; assumption 9). Safe. -/
  | notACommandByte (byte : Byte)
  /-- Raised by a sequencer operation while `cal_loaded` = 0, and so by READ_T and READ_P while `COEF` holds no value
  (R181 b, R152, R7, R28). Safe. -/
  | calibrationNotLoaded
  /-- Raised by START_k or READ_k while the other kind, named here, is not Idle (R181 c, R151). Safe. -/
  | otherKindNotIdle (other : Kind)
  /-- Raised by the step when an operation is presented while one executes (R181 d, R182). Safe. -/
  | operationInProgress
  /-- Raised by the step on `elapse(k)` where it is not enabled, so that there is no step (R148). Safe. -/
  | elapseNotEnabled (k : Kind)
  deriving DecidableEq, Repr

/-- The state after reset (R31, R190). No input is pending, no answer is listed and no transaction has been made. -/
def State.reset : State :=
  { raw := none
    coef := none
    calLoaded := false
    calValid := false
    seqT := .idle
    seqP := .idle
    result := none
    startedWaitT := none
    startedWaitP := none
    inputs := []
    bus := { answers := [], trace := [] } }

end Sys2Proof.Machine
end

