-- ==== Sys2Proof/Machine/Operands.lean ====
section
/-! DEFINITION. Operand forms and fixed tables: the register map (spec/20_memory.md rule R42), the layouts of bus bytes
(spec/30_encoding.md rules R70, R71), the oversampling operand and its table (R63 to R65, spec/43_conversion_sequencer.md
rule R138), the hardwired coefficients (spec/42_calibration_loader.md rule R114), and the codes of results (R68, R69, R73). -/

namespace Sys2Proof.Machine

/-! ## The register map (R42) -/

/-- CONTROL, the register the command bytes are written to (R42). -/
def controlAddr : Addr := 0xF4#8

/-- RESULT, the register the raw counts are read from (R42). -/
def resultAddr : Addr := 0xF6#8

/-! ## Layouts of bus bytes (R44, R70): the byte at the lower address comes first and is the more significant -/

/-- `U16BE` (R7, R70). -/
def u16be (b0 b1 : Byte) : Nat := b0.toNat * 256 + b1.toNat

/-- `sext_16` (R6, R83): a 16-bit pattern read as two's complement. -/
def sext16 (v : Nat) : Int := if v < 32768 then (v : Int) else (v : Int) - 65536

/-- `I16BE` (R7, R70). -/
def i16be (b0 b1 : Byte) : Int := sext16 (u16be b0 b1)

/-- The integer image of the 3-byte pressure count: `MSB·65536 + LSB·256 + XLSB` (R71). -/
def up24be (msb lsb xlsb : Byte) : Nat := msb.toNat * 65536 + lsb.toNat * 256 + xlsb.toNat

/-- `pu = up24 / 256`, an exact division (R71, R142). -/
def puOf (up24 : Nat) : NUM := (up24 : NUM) / 256

/-! ## The oversampling operand (R63) and the commands (R64, R65, R138) -/

/-- The effective setting: `oss` where it is 0, 1, 2 or 3, and 0 otherwise (R63). -/
def effectiveOss (oss : Int) : Fin 4 :=
  if oss = 1 then 1 else if oss = 2 then 2 else if oss = 3 then 3 else 0

/-- The command byte of START_T (R64). -/
def temperatureCommand : Byte := 0x2E#8

/-- The wait of START_T in milliseconds (R65). -/
def temperatureWait : Nat := 5

/-- The command byte of START_P at an effective setting (R64, R138). -/
def pressureCommand : Fin 4 → Byte
  | 0 => 0x34#8
  | 1 => 0x74#8
  | 2 => 0xB4#8
  | 3 => 0xF4#8

/-- The wait of START_P at an effective setting, in milliseconds (R65, R138). -/
def pressureWait : Fin 4 → Nat
  | 0 => 5
  | 1 => 8
  | 2 => 14
  | 3 => 26

/-! ## The hardwired coefficients (R23, R114) -/

/-- `p0 = (3791 − 8) / 1600` (R114). -/
def coefP0 : NUM := (3791 - 8) / 1600

/-- `p1 = 1 − 7357 · 2^-20` (R114). -/
def coefP1 : NUM := 1 - 7357 / 1048576

/-- `p2 = 3038 · 100 · 2^-36` (R114). -/
def coefP2 : NUM := 3038 * 100 / 68719476736

/-! ## Codes of results (R68, R69) and of the status view (R73) -/

/-- The 2-bit code of a status (R68). -/
def statusCode : Status → BitVec 2
  | .ok => 0#2
  | .busTransportError => 1#2
  | .calibrationInvalid => 2#2
  | .computationError => 3#2

/-- The 3-bit code of a band (R69). -/
def bandCode : Band → BitVec 3
  | .veryLow => 0#3
  | .low => 1#3
  | .normal => 2#3
  | .high => 3#3
  | .veryHigh => 4#3

/-- The 2-bit code of a protocol state (R73). -/
def seqCode : SeqState → BitVec 2
  | .idle => 0#2
  | .awaitingStart => 1#2
  | .conversionPending => 2#2
  | .resultReady => 3#2

/-- The register addresses a transaction touches, one a byte: byte `j` is at `addr + j` (R7, R42, R105). -/
def touchedAddrs : Request → List Nat
  | .read addr n => (List.range n).map (addr.toNat + ·)
  | .write addr bytes => (List.range bytes.length).map (addr.toNat + ·)

end Sys2Proof.Machine
end

