-- ==== Sys2Proof/Machine/Flags.lean ====
section
/-! DEFINITION. The flag computations: the validity check of LOAD (spec/42_calibration_loader.md rule R115) and the packed
status view (spec/30_encoding.md rule R73). -/

namespace Sys2Proof.Machine

/-- The validity check of R115: none of the eleven decoded values is exactly zero, MB included. -/
def allNonzero (v : RawCal) : Bool :=
  decide (v.ac1 ≠ 0) && decide (v.ac2 ≠ 0) && decide (v.ac3 ≠ 0) && decide (v.ac4 ≠ 0) &&
  decide (v.ac5 ≠ 0) && decide (v.ac6 ≠ 0) && decide (v.vb1 ≠ 0) && decide (v.vb2 ≠ 0) &&
  decide (v.mb ≠ 0) && decide (v.mc ≠ 0) && decide (v.md ≠ 0)

/-- The status a completed LOAD reports (R117). -/
def validityStatus (valid : Bool) : Status := if valid then .ok else .calibrationInvalid

/-- The status view as one register (R32, R73): bit 0 `cal_loaded`, bit 1 `cal_valid`, bits 3:2 `seq[T]`, bits 5:4
`seq[P]`, bits 7:6 read as 0. A read-only function of the state: observing it changes nothing. -/
def statusView (s : State) : BitVec 8 :=
  0#2 ++ seqCode s.seqP ++ seqCode s.seqT ++ BitVec.ofBool s.calValid ++ BitVec.ofBool s.calLoaded

end Sys2Proof.Machine
end

