-- ==== Sys2Proof/Machine/Ops.lean ====
section
/-! DEFINITION. The named operations over the bus and the registers: the two bus primitives (spec/00_scope.md rule R7), the
Register Accessor (spec/41_register_accessor.md), the accessors of `COEF` and `seq[k]`, the end of an operation with its
result record (spec/60_exceptions.md rule R176), the refusals of R181, and the common start procedure (R131). -/

namespace Sys2Proof.Machine

/-- The outcome of one operation. -/
abbrev Step := Host.Outcome State Fault Refusal

/-! ## The bus primitives (R7, R41, R48) -/

/-- What the environment answers to a read of `n` bytes at `addr` (R41): the next listed answer, and where none is
listed, or the listed one is not `n` bytes long, the oracle's free answer (assumptions 2, 3). -/
def readAnswer (addr : Addr) (n : Nat) (b : Bus) : Option (Vector Byte n) :=
  match b.answers with
  | [] => Config.freeRead b.trace addr n
  | .failed :: _ => none
  | .ok bytes :: _ =>
    if h : bytes.toArray.size = n then some ⟨bytes.toArray, h⟩ else Config.freeRead b.trace addr n

/-- Whether the environment accepts a write (R41): the next listed answer, else the oracle's free answer. -/
def writeAnswer (addr : Addr) (bytes : List Byte) (b : Bus) : Bool :=
  match b.answers with
  | [] => Config.freeWrite b.trace addr bytes
  | .failed :: _ => false
  | .ok _ :: _ => true

/-- How the history writes down the answer to a read. -/
def readOutcome {n : Nat} : Option (Vector Byte n) → Answer
  | some v => .ok v.toList
  | none => .failed

/-- How the history writes down the verdict on a write. -/
def writeOutcome (accepted : Bool) : Answer := if accepted then .ok [] else .failed

/-- One transaction has taken place (R48, R50): its listed answer is used up and it ends the history. It was
addressed to the one device of R43. -/
def busRecord (request : Request) (answer : Answer) (b : Bus) : Bus :=
  { answers := b.answers.tail
    trace := b.trace ++ [{ device := Config.devAddr, request := request, answer := answer }] }

/-- `MemRead(addr, n)` (R7): all `n` bytes, or failure (R48). -/
def memRead (addr : Addr) (n : Nat) (b : Bus) : Option (Vector Byte n) × Bus :=
  (readAnswer addr n b, busRecord (.read addr n) (readOutcome (readAnswer addr n b)) b)

/-- `MemWrite(addr, n, v)` (R7): whether the batch write completed. -/
def memWrite (addr : Addr) (bytes : List Byte) (b : Bus) : Bool × Bus :=
  (writeAnswer addr bytes b,
    busRecord (.write addr bytes) (writeOutcome (writeAnswer addr bytes b)) b)

/-! ## The Register Accessor (R100 to R105): a failed read gives no value (R104, R55) -/

/-- RD_I16 (R101). -/
def rdI16 (addr : Addr) (b : Bus) : Option Int × Bus :=
  let r := memRead addr 2 b
  (r.1.map fun v => i16be v[0] v[1], r.2)

/-- RD_U16 (R102). -/
def rdU16 (addr : Addr) (b : Bus) : Option Nat × Bus :=
  let r := memRead addr 2 b
  (r.1.map fun v => u16be v[0] v[1], r.2)

/-- RD_BYTES (R103). -/
def rdBytes (addr : Addr) (n : Nat) (b : Bus) : Option (Vector Byte n) × Bus := memRead addr n b

/-- WR_BYTES (R105). -/
def wrBytes (addr : Addr) (bytes : List Byte) (b : Bus) : Bool × Bus := memWrite addr bytes b

/-- A sequence of reads stops at the first failure (R111, R171): where `first` failed, `next` is not issued. -/
def readThen {α β : Type} (first : Bus → Option α × Bus) (next : α → Bus → Option β × Bus) (b : Bus) :
    Option β × Bus :=
  match first b with
  | (some a, b') => next a b'
  | (none, b') => (none, b')

/-! ## Registers -/

/-- The file `COEF` read by name (R22): thirteen stored registers, and `p0`, `p1`, `p2` hardwired (R23). -/
def coefValue (c : Coefs) : CoefName → NUM
  | .c3 => c.c3
  | .c4 => c.c4
  | .b1 => c.b1
  | .c5 => c.c5
  | .c6 => c.c6
  | .mc => c.mc
  | .md => c.md
  | .x0 => c.x0
  | .x1 => c.x1
  | .x2 => c.x2
  | .y0 => c.y0
  | .y1 => c.y1
  | .y2 => c.y2
  | .p0 => coefP0
  | .p1 => coefP1
  | .p2 => coefP2

/-- A coefficient register of the state: `none` where it holds no value (R28); the three constants hold theirs
from reset (R23, R31). -/
def readCoef (s : State) (n : CoefName) : Option NUM :=
  match n with
  | .p0 => some coefP0
  | .p1 => some coefP1
  | .p2 => some coefP2
  | n => s.coef.map fun c => coefValue c n

/-- `RAW[i]` by index, in the order of R20. -/
def rawList (v : RawCal) : List Int :=
  [v.ac1, v.ac2, v.ac3, v.ac4, v.ac5, v.ac6, v.vb1, v.vb2, v.mb, v.mc, v.md]

/-- The other measurement kind. -/
def otherKind : Kind → Kind
  | .T => .P
  | .P => .T

/-- `seq[k]` (R26). -/
def seqOf (s : State) : Kind → SeqState
  | .T => s.seqT
  | .P => s.seqP

/-- `seq[k] <- v` (R26). -/
def setSeq (k : Kind) (v : SeqState) (s : State) : State :=
  match k with
  | .T => { s with seqT := v }
  | .P => { s with seqP := v }

/-- The wait the host was last handed for kind `k` (assumption 6). -/
def startedWait (s : State) : Kind → Option Nat
  | .T => s.startedWaitT
  | .P => s.startedWaitP

/-- The host is handed a wait for kind `k` (assumption 6). -/
def setStartedWait (k : Kind) (w : Nat) (s : State) : State :=
  match k with
  | .T => { s with startedWaitT := some w }
  | .P => { s with startedWaitP := some w }

/-! ## The end of an operation and the refusals -/

/-- The operation ends and drives its result record (R7 `return`, R67). -/
def finish (r : Result) (s : State) : State := { s with result := some r }

/-- `raise E` (R7, R176): the operation ends with the status `E`; there is no handler, no saved state and no mode
change, and no other result field has a value (R183). -/
def raiseError (e : Status) (s : State) : State := finish { status := e } s

/-- The refusals of a sequencer operation of kind `k` (R151, R152, R181 b and c), tested before everything else
(R175). -/
def sequencerRefusal (k : Kind) (s : State) : Option Refusal :=
  if s.calLoaded = false then some .calibrationNotLoaded
  else if seqOf s (otherKind k) = .idle then none
  else some (.otherKindNotIdle (otherKind k))

/-- A sequencer operation of kind `k` runs only where it is not refused; a refused one issues no transaction and
changes nothing (R175, R181). -/
def unlessRefused (k : Kind) (s : State) (run : Step) : Step :=
  match sequencerRefusal k s with
  | some r => .refused r
  | none => run

/-- An operation that reads `COEF` runs on its values. While the registers hold none it is refused, and the refusal R7
refers to is that of R181 (b): "With `cal_loaded` = 0 the coefficients hold no value" (R152, R28; assumption 11). -/
def withCoefs (s : State) (run : Coefs → Step) : Step :=
  match s.coef with
  | some c => run c
  | none => .refused .calibrationNotLoaded

/-! ## The common start procedure (R131) -/

/-- `start(k, cmd, w)` (R131): `seq[k]` is AwaitingStart while the one-byte write of `cmd` to CONTROL is under way
(R147); a failed write restores the earlier `seq[k]` (R150) and drives both the status and the zero wait (R67). The
wait is returned, not performed (R132). -/
def startConversion (k : Kind) (cmd : Byte) (w : Nat) (s : State) : State :=
  let prev := seqOf s k
  let awaiting := setSeq k .awaitingStart s
  let (accepted, bus) := wrBytes controlAddr [cmd] awaiting.bus
  let written := { awaiting with bus := bus }
  if accepted then
    finish { status := .ok, waitMs := some w } (setStartedWait k w (setSeq k .conversionPending written))
  else
    finish { status := .busTransportError, waitMs := some 0 } (setSeq k prev written)

end Sys2Proof.Machine
end

