-- ==== Sys2Proof/Machine/Compensation.lean ====
section
/-! DEFINITION. The arithmetic of the block in exact rationals (spec/40_numerics.md): the coefficient derivation
(spec/42_calibration_loader.md rule R113), the two compensation formulas (spec/43_conversion_sequencer.md rules R133, R140,
stages T2 to T4 and P2 to P5 of R145) and the band boundaries (spec/44_classifier.md rule R160). -/

namespace Sys2Proof.Machine

/-- `derive(v)` (R113), the document's formulas; the scaling constants are the exact rationals of R84. -/
def derive (v : RawCal) : Coefs :=
  let c3 : NUM := 160 / 32768 * v.ac3
  let c4 : NUM := 1 / 1000 / 32768 * v.ac4
  let b1 : NUM := 160 * 160 / 1073741824 * v.vb1
  { c3 := c3
    c4 := c4
    b1 := b1
    c5 := 1 / 32768 / 160 * v.ac5
    c6 := v.ac6
    mc := 2048 / (160 * 160) * v.mc
    md := v.md / 160
    x0 := v.ac1
    x1 := 160 / 8192 * v.ac2
    x2 := 160 * 160 / 33554432 * v.vb2
    y0 := c4 * 32768
    y1 := c4 * c3
    y2 := c4 * b1 }

/-- The coefficients as LOAD stores them: `rnd` of the exact values (R5, 92_eei_decisions.md D2). -/
def storedCoefs (c : Coefs) : Coefs :=
  { c3 := Config.rnd c.c3
    c4 := Config.rnd c.c4
    b1 := Config.rnd c.b1
    c5 := Config.rnd c.c5
    c6 := Config.rnd c.c6
    mc := Config.rnd c.mc
    md := Config.rnd c.md
    x0 := Config.rnd c.x0
    x1 := Config.rnd c.x1
    x2 := Config.rnd c.x2
    y0 := Config.rnd c.y0
    y1 := Config.rnd c.y1
    y2 := Config.rnd c.y2 }

/-- Stage T2: `a = c5·(tu − c6)` (R133). -/
def tempA (c : Coefs) (tu : Nat) : NUM := coefValue c .c5 * (tu - coefValue c .c6)

/-- Stage T3: the divisor `d = a + md` (R133, R135). -/
def tempDivisor (c : Coefs) (tu : Nat) : NUM := tempA c tu + coefValue c .md

/-- Stage T4: `T = a + mc / d` (R133); used only where `d ≠ 0`. -/
def temperature (c : Coefs) (tu : Nat) : NUM := tempA c tu + coefValue c .mc / tempDivisor c tu

/-- Stage P2: `s = T − 25` (R140). -/
def pressS (t : NUM) : NUM := t - 25

/-- Stage P3: `x = x2·s² + x1·s + x0` (R140). -/
def pressX (c : Coefs) (s : NUM) : NUM := coefValue c .x2 * s * s + coefValue c .x1 * s + coefValue c .x0

/-- Stage P3: the divisor `y = y2·s² + y1·s + y0` (R140, R143). -/
def pressY (c : Coefs) (s : NUM) : NUM := coefValue c .y2 * s * s + coefValue c .y1 * s + coefValue c .y0

/-- Stage P4: `z = (pu − x) / y` (R140); used only where `y ≠ 0`. -/
def pressZ (c : Coefs) (s pu : NUM) : NUM := (pu - pressX c s) / pressY c s

/-- Stage P5: `P = p2·z² + p1·z + p0` (R140). -/
def pressP (c : Coefs) (z : NUM) : NUM := coefValue c .p2 * z * z + coefValue c .p1 * z + coefValue c .p0

/-- The pressure from the temperature operand and the raw count (R140). -/
def pressure (c : Coefs) (t : NUM) (up24 : Nat) : NUM := pressP c (pressZ c (pressS t) (puOf up24))

/-- The band of a pressure: half-open intervals, exact comparisons (R160, R161, R89). -/
def bandOf (p : NUM) : Band :=
  if p < 950 then .veryLow
  else if p < 990 then .low
  else if p < 1031 then .normal
  else if p < 1051 then .high
  else .veryHigh

end Sys2Proof.Machine
end

