-- ==== Sys2Proof/Machine/Calibration.lean ====
section
/-! DEFINITION. The Calibration Loader: LOAD (spec/42_calibration_loader.md). -/

namespace Sys2Proof.Machine

/-- Phase 1 of LOAD (R110, R111): eleven 2-byte reads in ascending address order, each with its register's layout,
stopping at the first failure. -/
def readCalibration : Bus → Option RawCal × Bus :=
  readThen (rdI16 0xAA#8) fun ac1 =>
  readThen (rdI16 0xAC#8) fun ac2 =>
  readThen (rdI16 0xAE#8) fun ac3 =>
  readThen (rdU16 0xB0#8) fun ac4 =>
  readThen (rdU16 0xB2#8) fun ac5 =>
  readThen (rdU16 0xB4#8) fun ac6 =>
  readThen (rdI16 0xB6#8) fun vb1 =>
  readThen (rdI16 0xB8#8) fun vb2 =>
  readThen (rdI16 0xBA#8) fun mb =>
  readThen (rdI16 0xBC#8) fun mc =>
  readThen (rdI16 0xBE#8) fun md => fun b =>
  (some { ac1 := ac1, ac2 := ac2, ac3 := ac3, ac4 := ac4, ac5 := ac5, ac6 := ac6, vb1 := vb1, vb2 := vb2,
          mb := mb, mc := mc, md := md }, b)

/-- Phases 2 and 3 of LOAD (R110, R115, R116): derive, and commit everything in one step (R33). -/
def commitCalibration (v : RawCal) (s : State) : State :=
  finish { status := validityStatus (allNonzero v) }
    { s with
      raw := some v
      coef := some (storedCoefs (derive v))
      calLoaded := true
      calValid := allNonzero v }

/-- LOAD (R110): a failed read raises BusTransportError and writes nothing (R116); the status is R117's. -/
def execLoad (s : State) : Step :=
  let r := readCalibration s.bus
  .next (match r.1 with
    | some v => commitCalibration v { s with bus := r.2 }
    | none => raiseError .busTransportError { s with bus := r.2 })

end Sys2Proof.Machine
end

