-- ==== Sys2Proof/Machine/Classifier.lean ====
section
/-! DEFINITION. The Classifier: CLASSIFY (spec/44_classifier.md). -/

namespace Sys2Proof.Machine

/-- CLASSIFY (R160): total, stateless, no bus transaction, status always OK. -/
def execClassify (pIn : NUM) (s : State) : Step :=
  .next (finish { status := .ok, band := some (bandOf pIn) } s)

end Sys2Proof.Machine
end

