-- ==== Sys2Proof/Machine/Commands.lean ====
section
/-! DEFINITION. The five command bytes of spec/30_encoding.md rules R64, R65 as instructions: each runs the start procedure
of spec/43_conversion_sequencer.md rule R131 for its byte, under the refusals of the START operation that writes it
(assumption 9). -/

namespace Sys2Proof.Machine

/-- CMD_TEMPERATURE, 0x2E, 5 ms (R64, R65, R130). -/
def execCmdTemperature (s : State) : Step :=
  unlessRefused .T s (.next (startConversion .T 0x2E#8 5 s))

/-- CMD_PRESSURE_OSS0, 0x34, 5 ms (R64, R65, R138). -/
def execCmdPressureOss0 (s : State) : Step :=
  unlessRefused .P s (.next (startConversion .P 0x34#8 5 s))

/-- CMD_PRESSURE_OSS1, 0x74, 8 ms (R64, R65, R138). -/
def execCmdPressureOss1 (s : State) : Step :=
  unlessRefused .P s (.next (startConversion .P 0x74#8 8 s))

/-- CMD_PRESSURE_OSS2, 0xB4, 14 ms (R64, R65, R138). -/
def execCmdPressureOss2 (s : State) : Step :=
  unlessRefused .P s (.next (startConversion .P 0xB4#8 14 s))

/-- CMD_PRESSURE_OSS3, 0xF4, 26 ms (R64, R65, R138). -/
def execCmdPressureOss3 (s : State) : Step :=
  unlessRefused .P s (.next (startConversion .P 0xF4#8 26 s))

end Sys2Proof.Machine
end

