-- ==== Sys2Proof/Machine/Sequencer.lean ====
section
/-! DEFINITION. The Conversion Sequencer: START_T, READ_T, START_P, READ_P (spec/43_conversion_sequencer.md). -/

namespace Sys2Proof.Machine

/-- START_T (R130): the fixed temperature command, wait 5 ms. -/
def execStartT (s : State) : Step :=
  unlessRefused .T s (.next (startConversion .T temperatureCommand temperatureWait s))

/-- START_P (R137): command and wait selected by the effective oversampling setting (R63, R138). -/
def execStartP (oss : Int) (s : State) : Step :=
  unlessRefused .P s
    (.next (startConversion .P (pressureCommand (effectiveOss oss)) (pressureWait (effectiveOss oss)) s))

/-- The end of READ_T once the bus has answered (R133): the zero-divisor test comes after the read and before the
division (R135, R175). -/
def finishReadT (c : Coefs) (tu : Option Nat) (s : State) : State :=
  match tu with
  | none => raiseError .busTransportError s
  | some tu =>
    if tempDivisor c tu = 0 then raiseError .computationError s
    else finish
      { status := .ok, raw := some (.tu (BitVec.ofNat 16 tu)), value := some (Config.rnd (temperature c tu)) } s

/-- READ_T (R133): `seq[T] <- Idle` in every outcome (R149), one 2-byte read of RESULT (R134), the temperature. -/
def execReadT (s : State) : Step :=
  unlessRefused .T s (withCoefs s fun c =>
    let r := rdU16 resultAddr s.bus
    .next (finishReadT c r.1 (setSeq .T .idle { s with bus := r.2 })))

/-- The end of READ_P once the bus has answered (R140): the test `y = 0` comes after the read (R143, R175). -/
def finishReadP (c : Coefs) (t : NUM) (bytes : Option (Vector Byte 3)) (s : State) : State :=
  match bytes with
  | none => raiseError .busTransportError s
  | some b =>
    let up24 := up24be b[0] b[1] b[2]
    if pressY c (pressS t) = 0 then raiseError .computationError s
    else finish
      { status := .ok, raw := some (.up24 (BitVec.ofNat 24 up24)), value := some (Config.rnd (pressure c t up24)) } s

/-- READ_P (R140): `seq[P] <- Idle` in every outcome (R149), one 3-byte read of RESULT (R142), the pressure for the
temperature operand (R141). -/
def execReadP (tIn : NUM) (s : State) : Step :=
  unlessRefused .P s (withCoefs s fun c =>
    let r := rdBytes resultAddr 3 s.bus
    .next (finishReadP c tIn r.1 (setSeq .P .idle { s with bus := r.2 })))

end Sys2Proof.Machine
end

