-- ==== Sys2Proof/Machine/Dispatch.lean ====
section
/-! DEFINITION. One arm per instruction: which definition is its meaning. -/

namespace Sys2Proof.Machine

/-- What each instruction does: one arm per row of spec/opcode_table.json. -/
def exec (i : Instr) (s : State) : Host.Outcome State Fault Refusal :=
  match i with
  | .load => Sys2Proof.Machine.execLoad s
  | .startT => Sys2Proof.Machine.execStartT s
  | .readT => Sys2Proof.Machine.execReadT s
  | .startP oss => Sys2Proof.Machine.execStartP oss s
  | .readP tIn => Sys2Proof.Machine.execReadP tIn s
  | .classify pIn => Sys2Proof.Machine.execClassify pIn s
  | .cmdTemperature => Sys2Proof.Machine.execCmdTemperature s
  | .cmdPressureOss0 => Sys2Proof.Machine.execCmdPressureOss0 s
  | .cmdPressureOss1 => Sys2Proof.Machine.execCmdPressureOss1 s
  | .cmdPressureOss2 => Sys2Proof.Machine.execCmdPressureOss2 s
  | .cmdPressureOss3 => Sys2Proof.Machine.execCmdPressureOss3 s

end Sys2Proof.Machine
end

