-- ==== Sys2Proof/Machine/Environment.lean ====
section
/-! DEFINITION. What the host does between operations (spec/70_reset_and_hazards.md rules R190, R191, R204;
spec/43_conversion_sequencer.md rule R148; spec/30_encoding.md rule R72) and how one host input runs. -/

namespace Sys2Proof.Machine

/-- The refusal that answers a form that selects no instruction (R62, R181 a; R64). -/
def decodeRefusal : DecodeError → Refusal
  | .reservedOpcode op => .reservedOpcode op
  | .notACommandByte b => .notACommandByte b

/-- A presented form runs the instruction it decodes to, and is refused where it decodes to none (R62). -/
def runPresented (e : Encoded) (s : State) : Step :=
  match decode e with
  | .ok i => exec i s
  | .error d => .refused (decodeRefusal d)

/-- `elapse(k)` (R148): enabled where `seq[k]` is ConversionPending, it sets `seq[k] <- ResultReady` and does nothing
else; elsewhere there is no step (assumption 5). -/
def runElapse (k : Kind) (s : State) : Step :=
  if seqOf s k = .conversionPending then .next (setSeq k .resultReady s) else .refused (.elapseNotEnabled k)

/-- The milliseconds a WAIT lets pass (R72): the number given, or the `wait_ms` of the last result record. -/
def waitedMs (d : WaitLength) (s : State) : Nat :=
  match d with
  | .ms n => n
  | .returned =>
    match s.result with
    | some r => r.waitMs.getD 0
    | none => 0

/-- WAIT k, ms (R72): `elapse(k)` where a conversion of kind `k` is pending and `ms` is at least its `wait_ms`;
otherwise time passes and the block's state does not change (assumption 6). -/
def runWait (k : Kind) (d : WaitLength) (s : State) : State :=
  match seqOf s k, startedWait s k with
  | .conversionPending, some w => if w ≤ waitedMs d s then setSeq k .resultReady s else s
  | _, _ => s

/-- Reset (R190, R31): every piece of the block's state takes its reset value. Nothing happens on the bus (R191), so
its answers and history stay, and so do the host's later inputs (assumption 7). -/
def applyReset (s : State) : State := { State.reset with inputs := s.inputs, bus := s.bus }

/-- One host input. -/
def runInput (i : HostInput) (s : State) : Step :=
  match i with
  | .present e => runPresented e s
  | .elapse k => runElapse k s
  | .wait k d => .next (runWait k d s)
  | .reset => .next (applyReset s)
  | .presentDuring _ => .refused .operationInProgress

/-- MEASURE_T (R72): `START_T`; `WAIT T, wait_ms`; `READ_T`, as the host's inputs. -/
def measureT : List HostInput :=
  [.present (encode .startT), .wait .T .returned, .present (encode .readT)]

/-- MEASURE_P oss, t (R72): `START_P oss`; `WAIT P, wait_ms`; `READ_P t`, as the host's inputs. -/
def measureP (oss : Int) (t : NUM) : List HostInput :=
  [.present (encode (.startP oss)), .wait .P .returned, .present (encode (.readP t))]

end Sys2Proof.Machine
end

