-- ==== Sys2Proof/Machine/Step.lean ====
section
/-! DEFINITION. One step of the machine: the host's next input (spec/70_reset_and_hazards.md rule R204). The block has no
program counter and fetches nothing (spec/10_state.md rule R27): the next operation is the one the host presents. -/

namespace Sys2Proof.Machine

/-- One step: the oldest pending input of the host runs; with none pending the block waits (R31, assumption 4). -/
def step (s : State) : Host.Outcome State Fault Refusal :=
  match s.inputs with
  | [] => .next s
  | i :: rest => runInput i { s with inputs := rest }

/-- The state in which the very next step presents and runs the given word of the opcode table: it becomes the
host's oldest pending input (assumption 18). -/
def State.withFetchWord (s : State) (nbits w : Nat) : State :=
  { s with inputs := .present (tableEncoded nbits w) :: s.inputs }

end Sys2Proof.Machine
end

