-- ==== Sys2Proof/Safety.lean ====
section
/-! DEFINITION. What the statements are made of: the invariant of the machine, the legal transactions and result records,
what each operation is expected to do to `seq[k]` and to the bus, and the host's duties. -/

namespace Sys2Proof.Machine

/-! ## Ranges and legal data -/

/-- A signed 16-bit register is in its range column (R20). -/
def inS16 (x : Int) : Prop := -32768 ≤ x ∧ x ≤ 32767

/-- An unsigned 16-bit register is in its range column (R20). -/
def inU16 (x : Int) : Prop := 0 ≤ x ∧ x ≤ 65535

/-- Every raw calibration register is in its range column (R20). -/
structure RawInRange (v : RawCal) : Prop where
  ac1 : inS16 v.ac1
  ac2 : inS16 v.ac2
  ac3 : inS16 v.ac3
  ac4 : inU16 v.ac4
  ac5 : inU16 v.ac5
  ac6 : inU16 v.ac6
  vb1 : inS16 v.vb1
  vb2 : inS16 v.vb2
  mb : inS16 v.mb
  mc : inS16 v.mc
  md : inS16 v.md

/-- The eleven calibration registers: address, and whether it is read signed (R42), in the order of R111. -/
def calRegisters : List (Addr × Bool) :=
  [(0xAA#8, true), (0xAC#8, true), (0xAE#8, true), (0xB0#8, false), (0xB2#8, false), (0xB4#8, false),
   (0xB6#8, true), (0xB8#8, true), (0xBA#8, true), (0xBC#8, true), (0xBE#8, true)]

/-- The five command bytes of R64. -/
def commandBytes : List Byte := [0x2E#8, 0x34#8, 0x74#8, 0xB4#8, 0xF4#8]

/-- The requests the block ever makes, the whole of R42 and R47. -/
def requestLegal : Request → Prop
  | .read a n => (n = 2 ∧ (a ∈ calRegisters.map Prod.fst ∨ a = 0xF6#8)) ∨ (n = 3 ∧ a = 0xF6#8)
  | .write a bytes => a = 0xF4#8 ∧ ∃ cmd ∈ commandBytes, bytes = [cmd]

/-- A finished transaction of the block: to the one device (R43), one of the legal requests (R42, R47), and
all-or-nothing (R48): a read that did not fail brought exactly the bytes asked for. -/
structure TransactionLegal (t : Transaction) : Prop where
  device : t.device = 0x77#8
  request : requestLegal t.request
  whole : ∀ a n bytes, t.request = .read a n → t.answer = .ok bytes → bytes.length = n

/-- The result records an operation of the block can drive (R67, R183). -/
inductive ResultLegal : Result → Prop
  /-- LOAD (R117). -/
  | load (st : Status) : st ≠ .computationError → ResultLegal { status := st }
  /-- START_k with the write accepted (R65). -/
  | started (w : Nat) : w ∈ [5, 8, 14, 26] → ResultLegal { status := .ok, waitMs := some w }
  /-- START_k with the write failed (R131). -/
  | notStarted : ResultLegal { status := .busTransportError, waitMs := some 0 }
  /-- READ_T with a reading (R133). -/
  | readingT (n : BitVec 16) (v : NUM) : ResultLegal { status := .ok, raw := some (.tu n), value := some v }
  /-- READ_P with a reading (R140). -/
  | readingP (n : BitVec 24) (v : NUM) : ResultLegal { status := .ok, raw := some (.up24 n), value := some v }
  /-- READ_k with a zero divisor (R135, R143). -/
  | zeroDivisor : ResultLegal { status := .computationError }
  /-- CLASSIFY (R160). -/
  | band (b : Band) : ResultLegal { status := .ok, band := some b }

/-- The waits START_k can hand out (R65). -/
def legalWait : Kind → Nat → Prop
  | .T, w => w = 5
  | .P, w => w ∈ [5, 8, 14, 26]

/-- `cal_valid` as R25 defines it from the registers. -/
def validOf : Option RawCal → Bool
  | some v => allNonzero v
  | none => false

/-! ## The invariant -/

/-- What holds of the machine between operations. -/
structure Consistent (s : State) : Prop where
  /-- `cal_loaded` is 1 exactly while the registers hold values (R24, R28). -/
  loaded : s.calLoaded = s.raw.isSome
  /-- The coefficients are those of the loaded registers, never half-updated (R33, R113). -/
  derived : s.coef = s.raw.map fun v => storedCoefs (derive v)
  /-- `cal_valid` is what R25 says. -/
  valid : s.calValid = validOf s.raw
  /-- The registers stay in their ranges (R20). -/
  range : ∀ v, s.raw = some v → RawInRange v
  /-- AwaitingStart is never seen between operations (R147). -/
  settled : ∀ k, seqOf s k ≠ .awaitingStart
  /-- One conversion at a time (R198, R151). -/
  oneKind : s.seqT = .idle ∨ s.seqP = .idle
  /-- A conversion needs a completed LOAD (R192, R152). -/
  started : s.calLoaded = false → s.seqT = .idle ∧ s.seqP = .idle
  /-- While a conversion is pending the host knows its wait (R148). -/
  wait : ∀ k, seqOf s k = .conversionPending → ∃ w, startedWait s k = some w ∧ legalWait k w
  /-- The last result record is one of R67's. -/
  result : ∀ r, s.result = some r → ResultLegal r
  /-- The bus history holds the block's transactions only (R42, R43, R47). -/
  trace : ∀ t ∈ s.bus.trace, TransactionLegal t

/-! ## What an operation does to the protocol state and to the bus -/

/-- The kind an instruction starts, if it starts one. -/
def startsKind : Instr → Option Kind
  | .startT => some .T
  | .startP _ => some .P
  | .cmdTemperature => some .T
  | .cmdPressureOss0 => some .P
  | .cmdPressureOss1 => some .P
  | .cmdPressureOss2 => some .P
  | .cmdPressureOss3 => some .P
  | .load => none
  | .readT => none
  | .readP _ => none
  | .classify _ => none

/-- The kind an instruction reads, if it reads one. -/
def readsKind : Instr → Option Kind
  | .readT => some .T
  | .readP _ => some .P
  | .load => none
  | .startT => none
  | .startP _ => none
  | .classify _ => none
  | .cmdTemperature => none
  | .cmdPressureOss0 => none
  | .cmdPressureOss1 => none
  | .cmdPressureOss2 => none
  | .cmdPressureOss3 => none

/-- The transition table of R146, row by row, for an operation that ended with status `st`. -/
def seqAfter (i : Instr) (st : Status) (k : Kind) (prev : SeqState) : SeqState :=
  if startsKind i = some k then (if st = .ok then .conversionPending else prev)
  else if readsKind i = some k then .idle
  else prev

/-- The requests of an operation none of whose transactions fails (R111, R131, R134, R142, R160). -/
def busRequests : Instr → List Request
  | .load => calRegisters.map fun r => .read r.1 2
  | .startT => [.write 0xF4#8 [0x2E#8]]
  | .readT => [.read 0xF6#8 2]
  | .startP oss => [.write 0xF4#8 [if oss = 1 then 0x74#8 else if oss = 2 then 0xB4#8 else if oss = 3 then 0xF4#8 else 0x34#8]]
  | .readP _ => [.read 0xF6#8 3]
  | .classify _ => []
  | .cmdTemperature => [.write 0xF4#8 [0x2E#8]]
  | .cmdPressureOss0 => [.write 0xF4#8 [0x34#8]]
  | .cmdPressureOss1 => [.write 0xF4#8 [0x74#8]]
  | .cmdPressureOss2 => [.write 0xF4#8 [0xB4#8]]
  | .cmdPressureOss3 => [.write 0xF4#8 [0xF4#8]]

/-- The integer a calibration register's two bytes stand for (R42, R70): the word, less 65536 where the register is
signed and the word is at least 32768. -/
def calValue (signed : Bool) (hi lo : Byte) : Int :=
  let word : Int := hi.toNat * 256 + lo.toNat
  if signed && decide (32768 ≤ word) then word - 65536 else word

/-! ## The host's wait and the tolerance of a finite format (R86, R196) -/

/-- The premise under which a reading of kind `k` is the sensor's measurement (R196, R197). -/
def waitHonoured (k : Kind) (s : State) : Prop := seqOf s k = .resultReady

/-- What a finite-precision implementation owes a coefficient of exact value `exact` (R86); the exact arithmetic of
this model meets it with equality. -/
def withinTolerance (c exact : NUM) : Prop :=
  if exact = 0 then c = 0 else |c - exact| ≤ 1 / 1000000000 * |exact|

end Sys2Proof.Machine
end

