-- ==== Sys2Proof/Certificates/Slice0/Obligations.lean ====
section
/-! DEFINITION. The statements for the provers, from the numbered rules of spec/. -/

open Sys2Proof Sys2Proof.Machine

/-! ## Encodings (spec/30_encoding.md) -/

/-- R61, R62: `op` alone selects the operation, and codes 6 and 7 select none. The codes are the spec's decision D3;
that bits 7 to 3 of the packed word, which belong to no field, are ignored is the model's choice, assumption 10. -/
def Obligations.OperationCodeSelectsOperation : Prop :=
  ∀ r : OpRecord,
    (opField r.word = 0#3 → decode (.op r) = .ok .load) ∧
    (opField r.word = 1#3 → decode (.op r) = .ok .startT) ∧
    (opField r.word = 2#3 → decode (.op r) = .ok .readT) ∧
    (opField r.word = 3#3 → decode (.op r) = .ok (.startP (ossField r.word))) ∧
    (opField r.word = 4#3 → decode (.op r) = .ok (.readP r.tIn)) ∧
    (opField r.word = 5#3 → decode (.op r) = .ok (.classify r.pIn)) ∧
    (opField r.word = 6#3 → decode (.op r) = .error (.reservedOpcode 6#3)) ∧
    (opField r.word = 7#3 → decode (.op r) = .error (.reservedOpcode 7#3))

/-- R60, R61, R64: words written out from the spec's encodings (the packed words of spec/95_test_vectors.md V-S1 to
V-S10 and words of the other operations, and the five command bytes) decode to the instructions they stand for. The
host words are the spec's decision D3; which format a form has is its presentation (assumption 10). -/
def Obligations.WordsOfTheSpecDecode : Prop :=
  decode (.op ⟨0x00#40, 0, 0⟩) = .ok .load ∧
  decode (.op ⟨0x01#40, 0, 0⟩) = .ok .startT ∧
  decode (.op ⟨0x02#40, 0, 0⟩) = .ok .readT ∧
  decode (.op ⟨0x0000000003#40, 0, 0⟩) = .ok (.startP 0) ∧
  decode (.op ⟨0x0000000103#40, 0, 0⟩) = .ok (.startP 1) ∧
  decode (.op ⟨0x0000000203#40, 0, 0⟩) = .ok (.startP 2) ∧
  decode (.op ⟨0x0000000303#40, 0, 0⟩) = .ok (.startP 3) ∧
  decode (.op ⟨0x0000000403#40, 0, 0⟩) = .ok (.startP 4) ∧
  decode (.op ⟨0x000000FF03#40, 0, 0⟩) = .ok (.startP 255) ∧
  decode (.op ⟨0xFFFFFFFF03#40, 0, 0⟩) = .ok (.startP (-1)) ∧
  decode (.op ⟨0x7FFFFFFF03#40, 0, 0⟩) = .ok (.startP 2147483647) ∧
  decode (.op ⟨0x04#40, 15, 0⟩) = .ok (.readP 15) ∧
  decode (.op ⟨0x05#40, 0, 950⟩) = .ok (.classify 950) ∧
  decode (.ctrlByte 0x2E#8) = .ok .cmdTemperature ∧
  decode (.ctrlByte 0x34#8) = .ok .cmdPressureOss0 ∧
  decode (.ctrlByte 0x74#8) = .ok .cmdPressureOss1 ∧
  decode (.ctrlByte 0xB4#8) = .ok .cmdPressureOss2 ∧
  decode (.ctrlByte 0xF4#8) = .ok .cmdPressureOss3

/-- R60, R61, R63, R64: no bit of an encoding is dropped: every well-formed instruction, with every operand, comes
back from its encoding. -/
def Obligations.EncodeThenDecodeReturnsInstruction : Prop :=
  ∀ i : Instr, i.wellFormed = true → decode (encode i) = .ok i

/-- R60: what the decoder reads is well-formed, and a form whose unused bits and ports are 0 is the encoding of what
it decodes to (that unused fields are written as 0 is the encoder's own convention, assumption 10). -/
def Obligations.DecodeThenEncodeReturnsCanonicalForm : Prop :=
  ∀ (e : Encoded) (i : Instr), decode e = .ok i →
    i.wellFormed = true ∧ (canonical e = true → encode i = e)

/-- R70, R83: the signed layout is the two's-complement value and the unsigned layouts the plain value of the bytes,
the first byte the most significant. -/
def Obligations.LayoutsAreBigEndianWords : Prop :=
  ∀ b0 b1 b2 : Byte,
    i16be b0 b1 = (b0 ++ b1 : BitVec 16).toInt ∧
    u16be b0 b1 = (b0 ++ b1 : BitVec 16).toNat ∧
    up24be b0 b1 b2 = (b0 ++ b1 ++ b2 : BitVec 24).toNat ∧
    puOf (up24be b0 b1 b2) = (b0.toNat : Rat) * 256 + b1.toNat + (b2.toNat : Rat) / 256

/-- R73: the bits of the status register, and its value after reset. The layout is the spec's decision D12. -/
def Obligations.StatusViewShowsFields : Prop :=
  (∀ s : State,
    ((statusView s).extractLsb' 0 1 = BitVec.ofBool s.calLoaded) ∧
    ((statusView s).extractLsb' 1 1 = BitVec.ofBool s.calValid) ∧
    ((statusView s).extractLsb' 2 2 = match s.seqT with
      | .idle => 0#2 | .awaitingStart => 1#2 | .conversionPending => 2#2 | .resultReady => 3#2) ∧
    ((statusView s).extractLsb' 4 2 = match s.seqP with
      | .idle => 0#2 | .awaitingStart => 1#2 | .conversionPending => 2#2 | .resultReady => 3#2) ∧
    ((statusView s).extractLsb' 6 2 = 0#2)) ∧
  statusView State.reset = 0#8

/-! ## The step and the host's inputs -/

/-- The host issues one operation at a time and each is one step (R8, R204). That its operations are a list of
pending inputs, of which a step takes the oldest, is the model's choice, assumption 4: where that input presents a
form that decodes to an instruction, a step is `exec` of that instruction, with the input taken off the list and
nothing else changed before it runs. -/
def Obligations.StepRunsDecodedInstruction : Prop :=
  ∀ (s : State) (e : Encoded) (i : Instr) (rest : List HostInput),
    s.inputs = .present e :: rest → decode e = .ok i →
      step s = exec i { s with inputs := rest }

/-- R181: the four refusals: a reserved code; a sequencer operation before LOAD, and so a READ while COEF holds no
value (R7, R28, R152); a sequencer operation while the other kind is not Idle; an operation presented while one
executes. What is refused is the spec's decisions D3, D10, D11, D15 and D25. The model's choices: bits 7 to 3 of the
word are ignored (assumption 10), an overlapping operation is an input of its own (assumption 8), `cal_loaded` = 0 is
named first where both (b) and (c) hold (assumption 24), and a presented byte that is no command byte is refused by
name (R64, assumption 9). That a READ without values is refused under the name of (b) is assumption 11. -/
def Obligations.RefusedOperationsHaveNoOutcome : Prop :=
  (∀ (s : State) (r : OpRecord) (rest : List HostInput), s.inputs = .present (.op r) :: rest →
    (opField r.word = 6#3 → step s = .refused (.reservedOpcode 6#3)) ∧
    (opField r.word = 7#3 → step s = .refused (.reservedOpcode 7#3))) ∧
  (∀ (s : State) (oss : Int) (t : NUM), s.calLoaded = false →
    exec .startT s = .refused .calibrationNotLoaded ∧
    exec .readT s = .refused .calibrationNotLoaded ∧
    exec (.startP oss) s = .refused .calibrationNotLoaded ∧
    exec (.readP t) s = .refused .calibrationNotLoaded) ∧
  (∀ s : State, s.calLoaded = true → s.seqP ≠ .idle →
    exec .startT s = .refused (.otherKindNotIdle .P) ∧
    exec .readT s = .refused (.otherKindNotIdle .P)) ∧
  (∀ (s : State) (oss : Int) (t : NUM), s.calLoaded = true → s.seqT ≠ .idle →
    exec (.startP oss) s = .refused (.otherKindNotIdle .T) ∧
    exec (.readP t) s = .refused (.otherKindNotIdle .T)) ∧
  (∀ (s : State) (e : Encoded) (rest : List HostInput), s.inputs = .presentDuring e :: rest →
    step s = .refused .operationInProgress) ∧
  (∀ (s : State) (b : Byte) (rest : List HostInput), s.inputs = .present (.ctrlByte b) :: rest →
    b ∉ commandBytes → step s = .refused (.notACommandByte b)) ∧
  (∀ (s : State) (t : NUM), s.coef = none →
    (s.seqP = .idle → exec .readT s = .refused .calibrationNotLoaded) ∧
    (s.seqT = .idle → exec (.readP t) s = .refused .calibrationNotLoaded))

/-- R148: `elapse(k)` is enabled where `seq[k]` is ConversionPending; it makes it ResultReady and does nothing else;
where it is not enabled there is no step. The environment step is the spec's decision D12; that a request for it
elsewhere ends the run is assumption 5. -/
def Obligations.ElapseMakesResultReady : Prop :=
  ∀ (s : State) (k : Kind) (rest : List HostInput), s.inputs = .elapse k :: rest →
    (seqOf s k = .conversionPending →
      step s = .next (match k with
        | .T => { s with inputs := rest, seqT := .resultReady }
        | .P => { s with inputs := rest, seqP := .resultReady })) ∧
    (seqOf s k ≠ .conversionPending → ∀ t, step s ≠ .next t)

/-- R72, the row WAIT: the host's wait, of a number of milliseconds or of the `wait_ms` just returned, is `elapse(k)`
where a conversion is pending and the wait is at least its `wait_ms`, and otherwise, with no remembered wait too,
changes nothing. The pseudo-operation is the spec's decision D1; who remembers the pending `wait_ms`, and that a last
result without a `wait_ms` counts as 0 milliseconds, are the model's choices, assumption 6. -/
def Obligations.WaitElapsesOnlyWhenLongEnough : Prop :=
  ∀ (s : State) (k : Kind) (d : WaitLength) (ms : Nat) (rest : List HostInput),
    s.inputs = .wait k d :: rest →
    (d = .ms ms ∨ d = .returned ∧ ms = (s.result.bind Result.waitMs).getD 0) →
      ∃ t, step s = .next t ∧
        ((∃ w, seqOf s k = .conversionPending ∧ startedWait s k = some w ∧ w ≤ ms) → seqOf t k = .resultReady) ∧
        (¬ (∃ w, seqOf s k = .conversionPending ∧ startedWait s k = some w ∧ w ≤ ms) → seqOf t k = seqOf s k) ∧
        (∀ k', k' ≠ k → seqOf t k' = seqOf s k') ∧
        t = { s with inputs := rest, seqT := t.seqT, seqP := t.seqP }

/-! ## Reset -/

/-- R31: the state after reset, the hardwired constants among it. The values are the spec's decision D10. -/
def Obligations.ResetLeavesSpecifiedValues : Prop :=
  State.reset.raw = none ∧ State.reset.coef = none ∧
  readCoef State.reset .p0 = some (3783 / 1600) ∧
  readCoef State.reset .p1 = some (1041219 / 1048576) ∧
  readCoef State.reset .p2 = some (37975 / 8589934592) ∧
  State.reset.calLoaded = false ∧ State.reset.calValid = false ∧
  State.reset.seqT = .idle ∧ State.reset.seqP = .idle ∧ State.reset.result = none

/-- R190, R191: a reset at any time puts the block into those values and does not touch the bus (that a reset is an
input between operations, and that later inputs stay, is the model's choice, assumption 7). The values are the spec's
decision D10. -/
def Obligations.ResetInputRestoresResetValues : Prop :=
  ∀ (s : State) (rest : List HostInput), s.inputs = .reset :: rest →
    ∃ t, step s = .next t ∧ t.raw = none ∧ t.coef = none ∧ t.calLoaded = false ∧ t.calValid = false ∧
      t.seqT = .idle ∧ t.seqP = .idle ∧ t.result = none ∧ t.bus = s.bus ∧ t.inputs = rest

/-! ## The Register Accessor (spec/41_register_accessor.md) -/

/-- R101: RD_I16 gives the two's-complement value of the two bytes, in one transaction, and no value where the read
fails. -/
def Obligations.ReadSigned16DecodesTwoBytes : Prop :=
  (∀ (addr : Addr) (hi lo : Byte) (b : Bus), readAnswer addr 2 b = some #v[hi, lo] →
    ∃ b', rdI16 addr b =
        (some (if hi.toNat * 256 + lo.toNat < 32768 then (hi.toNat * 256 + lo.toNat : Int)
               else (hi.toNat * 256 + lo.toNat : Int) - 65536), b') ∧
      b'.trace = b.trace ++ [⟨0x77#8, .read addr 2, .ok [hi, lo]⟩]) ∧
  (∀ (addr : Addr) (b : Bus), readAnswer addr 2 b = none → (rdI16 addr b).1 = none)

/-- R102, R103: RD_U16 and RD_BYTES give the bytes' unsigned value, or the bytes, in one transaction, and no value
where the read fails. -/
def Obligations.ReadUnsignedGivesBytes : Prop :=
  (∀ (addr : Addr) (hi lo : Byte) (b : Bus), readAnswer addr 2 b = some #v[hi, lo] →
    ∃ b', rdU16 addr b = (some (hi.toNat * 256 + lo.toNat), b') ∧
      b'.trace = b.trace ++ [⟨0x77#8, .read addr 2, .ok [hi, lo]⟩]) ∧
  (∀ (addr : Addr) (n : Nat) (v : Vector Byte n) (b : Bus), readAnswer addr n b = some v →
    ∃ b', rdBytes addr n b = (some v, b') ∧
      b'.trace = b.trace ++ [⟨0x77#8, .read addr n, .ok v.toList⟩]) ∧
  (∀ (addr : Addr) (b : Bus), readAnswer addr 2 b = none → (rdU16 addr b).1 = none) ∧
  (∀ (addr : Addr) (n : Nat) (b : Bus), readAnswer addr n b = none → (rdBytes addr n b).1 = none)

/-- R104, R55: a failed read gives no value, never a zero, and is not retried. -/
def Obligations.FailedReadGivesNoValue : Prop :=
  ∀ (addr : Addr) (n : Nat) (b : Bus),
    (readAnswer addr 2 b = none →
      (∃ b', rdI16 addr b = (none, b') ∧ b'.trace = b.trace ++ [⟨0x77#8, .read addr 2, .failed⟩]) ∧
      (∃ b', rdU16 addr b = (none, b') ∧ b'.trace = b.trace ++ [⟨0x77#8, .read addr 2, .failed⟩])) ∧
    (readAnswer addr n b = none →
      ∃ b', rdBytes addr n b = (none, b') ∧ b'.trace = b.trace ++ [⟨0x77#8, .read addr n, .failed⟩])

/-- R105: WR_BYTES is one batch whose byte `j` goes to `addr + j`, and fails where the bus write fails. -/
def Obligations.BatchWriteAutoIncrements : Prop :=
  ∀ (addr : Addr) (bytes : List Byte) (b : Bus),
    (∃ b', wrBytes addr bytes b = (writeAnswer addr bytes b, b') ∧
      b'.trace = b.trace ++
        [⟨0x77#8, .write addr bytes, if writeAnswer addr bytes b then .ok [] else .failed⟩]) ∧
    (touchedAddrs (.write addr bytes)).length = bytes.length ∧
    ∀ (j : Nat) (h : j < (touchedAddrs (.write addr bytes)).length),
      (touchedAddrs (.write addr bytes))[j] = addr.toNat + j

/-! ## LOAD (spec/42_calibration_loader.md) -/

/-- R113: the thirteen formulas as the document writes them, their closed forms, and their ranges for registers in
their range columns. The spec marks the closed forms as derived. -/
def Obligations.CoefficientsFollowTheFormulas : Prop :=
  ∀ v : RawCal,
    let c := derive v
    (c.c3 = 160 * (2 : Rat) ^ (-15 : Int) * v.ac3 ∧ c.c3 = 5 * v.ac3 / 2 ^ 10) ∧
    (c.c4 = (10 : Rat) ^ (-3 : Int) * (2 : Rat) ^ (-15 : Int) * v.ac4 ∧ c.c4 = v.ac4 / 32768000) ∧
    (c.b1 = 160 ^ 2 * (2 : Rat) ^ (-30 : Int) * v.vb1 ∧ c.b1 = 25 * v.vb1 / 2 ^ 20) ∧
    (c.c5 = (2 : Rat) ^ (-15 : Int) / 160 * v.ac5 ∧ c.c5 = v.ac5 / 5242880) ∧
    c.c6 = v.ac6 ∧
    (c.mc = 2 ^ 11 / 160 ^ 2 * v.mc ∧ c.mc = 2 * v.mc / 25) ∧
    c.md = v.md / 160 ∧
    c.x0 = v.ac1 ∧
    (c.x1 = 160 * (2 : Rat) ^ (-13 : Int) * v.ac2 ∧ c.x1 = 5 * v.ac2 / 2 ^ 8) ∧
    (c.x2 = 160 ^ 2 * (2 : Rat) ^ (-25 : Int) * v.vb2 ∧ c.x2 = 25 * v.vb2 / 2 ^ 15) ∧
    (c.y0 = c.c4 * 2 ^ 15 ∧ c.y0 = v.ac4 / 1000) ∧
    (c.y1 = c.c4 * c.c3 ∧ c.y1 = v.ac4 * v.ac3 / (2 ^ 28 * 25)) ∧
    (c.y2 = c.c4 * c.b1 ∧ c.y2 = v.ac4 * v.vb1 / (2 ^ 38 * 5)) ∧
    (RawInRange v →
      (-160 ≤ c.c3 ∧ c.c3 ≤ 159.9951171875) ∧ (0 ≤ c.c4 ∧ c.c4 ≤ 65535 / 32768000) ∧
      (-0.78125 ≤ c.b1 ∧ c.b1 ≤ 819175 / 1048576) ∧ (0 ≤ c.c5 ∧ c.c5 ≤ 65535 / 5242880) ∧
      (0 ≤ c.c6 ∧ c.c6 ≤ 65535) ∧ (-2621.44 ≤ c.mc ∧ c.mc ≤ 2621.36) ∧
      (-204.8 ≤ c.md ∧ c.md ≤ 204.79375) ∧ (-32768 ≤ c.x0 ∧ c.x0 ≤ 32767) ∧
      (-640 ≤ c.x1 ∧ c.x1 ≤ 639.98046875) ∧ (-25 ≤ c.x2 ∧ c.x2 ≤ 24.999237060546875) ∧
      (0 ≤ c.y0 ∧ c.y0 ≤ 65.535))

/-- R23, R114: `p0`, `p1`, `p2` read as their constants in every state, before any LOAD too. The values are R114's;
that they hold from reset is the spec's decision D10, and that they need no storage is assumption 12. -/
def Obligations.HardwiredCoefficientsReadConstant : Prop :=
  ∀ s : State,
    (readCoef s .p0 = some ((3791 - 8) / 1600) ∧ readCoef s .p0 = some (3783 / 1600)) ∧
    (readCoef s .p1 = some (1 - 7357 * (2 : Rat) ^ (-20 : Int)) ∧ readCoef s .p1 = some (1041219 / 1048576)) ∧
    (readCoef s .p2 = some (3038 * 100 * (2 : Rat) ^ (-36 : Int)) ∧ readCoef s .p2 = some (37975 / 8589934592))

/-- R86: what LOAD stores is within the tolerance a finite-precision implementation owes, of the formulas of R113.
The bound is an example of the source that the spec takes up (D2); this model's values are exact, assumption 1. -/
def Obligations.StoredCoefficientsMeetTolerance : Prop :=
  ∀ v : RawCal,
    let c := storedCoefs (derive v)
    withinTolerance c.c3 (5 * v.ac3 / 1024) ∧ withinTolerance c.c4 (v.ac4 / 32768000) ∧
    withinTolerance c.b1 (25 * v.vb1 / 1048576) ∧ withinTolerance c.c5 (v.ac5 / 5242880) ∧
    withinTolerance c.c6 v.ac6 ∧ withinTolerance c.mc (2 * v.mc / 25) ∧ withinTolerance c.md (v.md / 160) ∧
    withinTolerance c.x0 v.ac1 ∧ withinTolerance c.x1 (5 * v.ac2 / 256) ∧
    withinTolerance c.x2 (25 * v.vb2 / 32768) ∧ withinTolerance c.y0 (v.ac4 / 1000) ∧
    withinTolerance c.y1 (v.ac4 * v.ac3 / 6710886400) ∧ withinTolerance c.y2 (v.ac4 * v.vb1 / 1374389534720)

/-- R110, R112, R115, R116: LOAD whose eleven reads are answered with the given byte pairs. Every byte pair is
decoded with its register's layout into its register, the coefficients are derived from them, `cal_valid` says that
none is zero, and nothing else changes. Order and granularity of the reads are the spec's decision D7, and that a
LOAD after a LOAD does the same is its decision D9. -/
def Obligations.LoadCommitsWhatTheBusReturned : Prop :=
  ∀ (s : State) (pairs : List (Byte × Byte)) (rest : List Answer), pairs.length = 11 →
    s.bus.answers = pairs.map (fun p => .ok [p.1, p.2]) ++ rest →
    ∃ t v, exec .load s = .next t ∧
      rawList v = List.zipWith (fun r p => calValue r.2 p.1 p.2) calRegisters pairs ∧
      t.raw = some v ∧ t.coef = some (derive v) ∧ t.calLoaded = true ∧
      t.calValid = decide (∀ x ∈ rawList v, x ≠ 0) ∧
      t.result = some
        { status := if ∀ x ∈ rawList v, x ≠ 0 then Status.ok else Status.calibrationInvalid } ∧
      t.bus.trace = s.bus.trace ++
        List.zipWith (fun r p => ⟨0x77#8, .read r.1 2, .ok [p.1, p.2]⟩) calRegisters pairs ∧
      t.bus.answers = rest ∧
      t = { s with raw := t.raw, coef := t.coef, calLoaded := t.calLoaded, calValid := t.calValid,
                   result := t.result, bus := t.bus }

/-- R111, R116: LOAD stops at its first failed read, wherever that is, issues nothing further, and keeps the earlier
calibration. The early stop, the kept calibration and that a second LOAD is permitted are the spec's decisions D7, D8
and D9. -/
def Obligations.LoadStopsAtFirstFailedRead : Prop :=
  ∀ (s : State) (pairs : List (Byte × Byte)) (rest : List Answer), pairs.length < 11 →
    s.bus.answers = pairs.map (fun p => .ok [p.1, p.2]) ++ .failed :: rest →
    ∃ t, exec .load s = .next t ∧
      t.result = some { status := .busTransportError } ∧
      t.bus.trace.map Transaction.request =
        s.bus.trace.map Transaction.request ++
          (calRegisters.take (pairs.length + 1)).map (fun r => Request.read r.1 2) ∧
      t.bus.answers = rest ∧
      t = { s with result := t.result, bus := t.bus }

/-- R116, R117: LOAD completes in every state, whatever the bus does. If a read failed it reports BusTransportError
and changes nothing of the calibration; if all were read, RAW, COEF and the two flags change together, and the status
says whether a value is zero. That it completes in a loaded state too (R118) is the spec's decision D9, the kept
calibration D8, the priority D21 (assumptions 14, 19). -/
def Obligations.LoadCompletesInEveryState : Prop :=
  ∀ s : State, ∃ t, exec .load s = .next t ∧
    ((readCalibration s.bus).1 = none →
      t.result = some { status := .busTransportError } ∧ t = { s with result := t.result, bus := t.bus }) ∧
    (∀ v, (readCalibration s.bus).1 = some v →
      ((∃ x ∈ rawList v, x = 0) → t.result = some { status := .calibrationInvalid } ∧ t.calValid = false) ∧
      ((∀ x ∈ rawList v, x ≠ 0) → t.result = some { status := .ok } ∧ t.calValid = true) ∧
      t = { s with raw := some v, coef := some (derive v), calLoaded := true, calValid := t.calValid,
                   result := t.result, bus := t.bus })

/-! ## START_T, START_P and the command bytes -/

/-- R130, R131: START_T writes 0x2E to CONTROL in one transaction; accepted, it hands out 5 ms and the conversion is
pending; failed, it hands out 0 with BusTransportError and `seq[T]` keeps its value. Nothing else changes. START from
a state other than Idle (R150) is the spec's decision D14 (assumption 15); the host's memory of the wait, which an
accepted START makes the `wait_ms` it hands out (R148) and a failed one leaves, is the model's choice, assumption 6. -/
def Obligations.StartTemperatureWritesCommand : Prop :=
  ∀ s : State, s.calLoaded = true → s.seqP = .idle →
    ∃ t, exec .startT s = .next t ∧
      (writeAnswer 0xF4#8 [0x2E#8] s.bus = true →
        t.seqT = .conversionPending ∧ t.result = some { status := .ok, waitMs := some 5 } ∧
        t.startedWaitT = some 5 ∧
        t.bus.trace = s.bus.trace ++ [⟨0x77#8, .write 0xF4#8 [0x2E#8], .ok []⟩]) ∧
      (writeAnswer 0xF4#8 [0x2E#8] s.bus = false →
        t.seqT = s.seqT ∧ t.result = some { status := .busTransportError, waitMs := some 0 } ∧
        t.startedWaitT = s.startedWaitT ∧
        t.bus.trace = s.bus.trace ++ [⟨0x77#8, .write 0xF4#8 [0x2E#8], .failed⟩]) ∧
      t = { s with seqT := t.seqT, result := t.result, bus := t.bus, startedWaitT := t.startedWaitT }

/-- R137, R138, R63, R131: START_P at every oversampling operand; out of range it behaves as 0. START from a state
other than Idle (R150) is the spec's decision D14 (assumption 15); the model's choices are the host's memory of the
wait, which an accepted START makes the `wait_ms` it hands out (R148) and a failed one leaves (assumption 6), and the
meaning of an operand outside 32 bits (assumption 25). -/
def Obligations.StartPressureSelectsCommandAndWait : Prop :=
  ∀ (s : State) (oss : Int) (cmd : Byte) (w : Nat), s.calLoaded = true → s.seqT = .idle →
    (cmd, w) = (if oss = 1 then (0x74#8, 8) else if oss = 2 then (0xB4#8, 14)
      else if oss = 3 then (0xF4#8, 26) else (0x34#8, 5)) →
    ∃ t, exec (.startP oss) s = .next t ∧
      (writeAnswer 0xF4#8 [cmd] s.bus = true →
        t.seqP = .conversionPending ∧ t.result = some { status := .ok, waitMs := some w } ∧
        t.startedWaitP = some w ∧
        t.bus.trace = s.bus.trace ++ [⟨0x77#8, .write 0xF4#8 [cmd], .ok []⟩]) ∧
      (writeAnswer 0xF4#8 [cmd] s.bus = false →
        t.seqP = s.seqP ∧ t.result = some { status := .busTransportError, waitMs := some 0 } ∧
        t.startedWaitP = s.startedWaitP ∧
        t.bus.trace = s.bus.trace ++ [⟨0x77#8, .write 0xF4#8 [cmd], .failed⟩]) ∧
      t = { s with seqP := t.seqP, result := t.result, bus := t.bus, startedWaitP := t.startedWaitP }

/-- R64, R65: the temperature command byte as an instruction writes itself to CONTROL and hands out 5 ms. That the
byte runs the start procedure is the model's choice, assumption 9, as is the host's memory of the wait, assumption 6;
from a state other than Idle it follows the spec's decision D14. -/
def Obligations.TemperatureCommandStartsConversion : Prop :=
  ∀ s : State, s.calLoaded = true → s.seqP = .idle →
    ∃ t, exec .cmdTemperature s = .next t ∧
      (writeAnswer 0xF4#8 [0x2E#8] s.bus = true →
        t.seqT = .conversionPending ∧ t.result = some { status := .ok, waitMs := some 5 } ∧
        t.startedWaitT = some 5) ∧
      (writeAnswer 0xF4#8 [0x2E#8] s.bus = false →
        t.seqT = s.seqT ∧ t.result = some { status := .busTransportError, waitMs := some 0 } ∧
        t.startedWaitT = s.startedWaitT) ∧
      t.bus.trace.map Transaction.request = s.bus.trace.map Transaction.request ++ [.write 0xF4#8 [0x2E#8]] ∧
      t = { s with seqT := t.seqT, result := t.result, bus := t.bus, startedWaitT := t.startedWaitT }

/-- R64, R65: the four pressure command bytes as instructions. That a byte runs the start procedure is the model's
choice, assumption 9, as is the host's memory of the wait, assumption 6; from a state other than Idle they follow the
spec's decision D14. -/
def Obligations.PressureCommandsStartConversion : Prop :=
  ∀ (s : State) (i : Instr) (cmd : Byte) (w : Nat), s.calLoaded = true → s.seqT = .idle →
    (i, cmd, w) ∈ [(.cmdPressureOss0, 0x34#8, 5), (.cmdPressureOss1, 0x74#8, 8), (.cmdPressureOss2, 0xB4#8, 14),
      (.cmdPressureOss3, 0xF4#8, 26)] →
    ∃ t, exec i s = .next t ∧
      (writeAnswer 0xF4#8 [cmd] s.bus = true →
        t.seqP = .conversionPending ∧ t.result = some { status := .ok, waitMs := some w } ∧
        t.startedWaitP = some w) ∧
      (writeAnswer 0xF4#8 [cmd] s.bus = false →
        t.seqP = s.seqP ∧ t.result = some { status := .busTransportError, waitMs := some 0 } ∧
        t.startedWaitP = s.startedWaitP) ∧
      t.bus.trace.map Transaction.request = s.bus.trace.map Transaction.request ++ [.write 0xF4#8 [cmd]] ∧
      t = { s with seqP := t.seqP, result := t.result, bus := t.bus, startedWaitP := t.startedWaitP }

/-- The command bytes as instructions stop exactly where the START operation that writes them is refused, with the
same refusal (the model's choice, assumption 9): before LOAD, and while the other kind is not Idle; where both hold,
`cal_loaded` = 0 is named (assumption 24). -/
def Obligations.CommandBytesAreRefusedLikeStart : Prop :=
  ∀ (s : State) (i : Instr), i ∈ [.cmdPressureOss0, .cmdPressureOss1, .cmdPressureOss2, .cmdPressureOss3] →
    (∀ r, exec .cmdTemperature s = .refused r ↔ exec .startT s = .refused r) ∧
    (∀ (oss : Int) (r : Refusal), exec i s = .refused r ↔ exec (.startP oss) s = .refused r) ∧
    (s.calLoaded = false →
      exec .cmdTemperature s = .refused .calibrationNotLoaded ∧ exec i s = .refused .calibrationNotLoaded) ∧
    (s.calLoaded = true →
      (s.seqP ≠ .idle → exec .cmdTemperature s = .refused (.otherKindNotIdle .P)) ∧
      (s.seqT ≠ .idle → exec i s = .refused (.otherKindNotIdle .T)))

/-! ## READ_T -/

/-- R133, R134, R135: READ_T wherever it is not refused and the coefficients hold values: `seq[T]` is Idle in every
outcome; a failed read gives BusTransportError; otherwise the count is the unsigned word of the two bytes, a zero
divisor gives ComputationError without a reading, and every other divisor the formula's temperature. Nothing else
changes. Idle in every outcome (R149) is the spec's decision D13 (assumption 15), that its own `seq[T]` does not
matter (R152) is D12, and exact values are D2 (assumption 1). -/
def Obligations.ReadTemperatureFollowsTheFormula : Prop :=
  ∀ (s : State) (c : Coefs), s.calLoaded = true → s.seqP = .idle → s.coef = some c →
    ∃ t, exec .readT s = .next t ∧ t.seqT = .idle ∧
      t = { s with seqT := t.seqT, result := t.result, bus := t.bus } ∧
      (readAnswer 0xF6#8 2 s.bus = none →
        t.result = some { status := .busTransportError } ∧
        t.bus.trace = s.bus.trace ++ [⟨0x77#8, .read 0xF6#8 2, .failed⟩]) ∧
      (∀ (hi lo : Byte) (tu : Nat) (a : Rat), readAnswer 0xF6#8 2 s.bus = some #v[hi, lo] →
        tu = hi.toNat * 256 + lo.toNat → a = c.c5 * (tu - c.c6) →
        t.bus.trace = s.bus.trace ++ [⟨0x77#8, .read 0xF6#8 2, .ok [hi, lo]⟩] ∧
        (a + c.md = 0 → t.result = some { status := .computationError }) ∧
        (a + c.md ≠ 0 → t.result = some
          { status := .ok, raw := some (.tu (BitVec.ofNat 16 tu)), value := some (a + c.mc / (a + c.md)) }))

/-- R136, R135: with derived coefficients the divisor and the temperature are the integer forms, and the divisor is
zero exactly where the integer `D` is. The spec marks these forms as derived. -/
def Obligations.TemperatureClosedForm : Prop :=
  ∀ (v : RawCal) (tu : Nat) (n d : Int), n = v.ac5 * (tu - v.ac6) → d = n + 32768 * v.md →
    tempA (derive v) tu = n / 5242880 ∧
    tempDivisor (derive v) tu = d / 5242880 ∧
    (tempDivisor (derive v) tu = 0 ↔ d = 0) ∧
    (d ≠ 0 → temperature (derive v) tu = n / 5242880 + 2097152 * v.mc / (5 * d))

/-! ## READ_P -/

/-- R140, R142: READ_P wherever it is not refused and the coefficients hold values, for every temperature operand:
`seq[P]` is Idle in every outcome; a failed read gives BusTransportError; otherwise `y = 0` gives ComputationError
without a reading, and every other `y` the pressure of the three polynomials. Nothing else changes. Idle in every
outcome (R149) is the spec's decision D13 (assumption 15), that its own `seq[P]` does not matter (R152) is D12, that
a failed read hides `y = 0` (R175) is D21 (assumption 19), that `raw` is `up24` is D17, and exact values are D2
(assumption 1). -/
def Obligations.ReadPressureFollowsTheFormula : Prop :=
  ∀ (s : State) (c : Coefs) (tIn : NUM), s.calLoaded = true → s.seqT = .idle → s.coef = some c →
    ∃ t, exec (.readP tIn) s = .next t ∧ t.seqP = .idle ∧
      t = { s with seqP := t.seqP, result := t.result, bus := t.bus } ∧
      (readAnswer 0xF6#8 3 s.bus = none →
        t.result = some { status := .busTransportError } ∧
        t.bus.trace = s.bus.trace ++ [⟨0x77#8, .read 0xF6#8 3, .failed⟩]) ∧
      (∀ (msb lsb xlsb : Byte) (up24 : Nat) (sT x y z : Rat),
        readAnswer 0xF6#8 3 s.bus = some #v[msb, lsb, xlsb] →
        up24 = msb.toNat * 65536 + lsb.toNat * 256 + xlsb.toNat →
        sT = tIn - 25 → x = c.x2 * sT ^ 2 + c.x1 * sT + c.x0 → y = c.y2 * sT ^ 2 + c.y1 * sT + c.y0 →
        z = ((up24 : Rat) / 256 - x) / y →
        t.bus.trace = s.bus.trace ++ [⟨0x77#8, .read 0xF6#8 3, .ok [msb, lsb, xlsb]⟩] ∧
        (y = 0 → t.result = some { status := .computationError }) ∧
        (y ≠ 0 → t.result = some
          { status := .ok, raw := some (.up24 (BitVec.ofNat 24 up24)),
            value := some (37975 / 8589934592 * z ^ 2 + 1041219 / 1048576 * z + 3783 / 1600) }))

/-- R144, R143: the closed forms of the polynomials from the raw registers, their Horner forms, and when `y` is zero.
The spec marks the closed forms as derived. -/
def Obligations.PressureClosedForms : Prop :=
  ∀ (v : RawCal) (s z : Rat),
    pressX (derive v) s = 25 * v.vb2 * s ^ 2 / 32768 + 5 * v.ac2 * s / 256 + v.ac1 ∧
    pressY (derive v) s =
      v.ac4 * (25 * v.vb1 * s ^ 2 + 5120 * v.ac3 * s + 2 ^ 35) / (32768000 * 2 ^ 20) ∧
    pressP (derive v) z = 37975 * z ^ 2 / 8589934592 + 1041219 * z / 1048576 + 3783 / 1600 ∧
    pressX (derive v) s = ((derive v).x2 * s + (derive v).x1) * s + (derive v).x0 ∧
    pressY (derive v) s = ((derive v).y2 * s + (derive v).y1) * s + (derive v).y0 ∧
    pressP (derive v) z = (coefP2 * z + coefP1) * z + coefP0 ∧
    (pressY (derive v) s = 0 ↔ v.ac4 = 0 ∨ 25 * v.vb1 * s ^ 2 + 5120 * v.ac3 * s + 2 ^ 35 = 0)

/-- R119: the corner cases of the derivation that decide every later reading: with AC4 = 0 every READ_P whose read
succeeds reports ComputationError, whatever the operand and the bytes; with AC5 = 0 and MD = 0 every such READ_T
does. The spec marks these cases as derived. -/
def Obligations.ZeroCalibrationForcesComputationError : Prop :=
  ∀ (s : State) (v : RawCal), Consistent s → s.raw = some v →
    (v.ac4 = 0 → s.seqT = .idle → ∀ (tIn : NUM) (bytes : Vector Byte 3),
      readAnswer 0xF6#8 3 s.bus = some bytes →
      ∃ t, exec (.readP tIn) s = .next t ∧ t.result = some { status := .computationError }) ∧
    (v.ac5 = 0 → v.md = 0 → s.seqP = .idle → ∀ bytes : Vector Byte 2,
      readAnswer 0xF6#8 2 s.bus = some bytes →
      ∃ t, exec .readT s = .next t ∧ t.result = some { status := .computationError })

/-! ## CLASSIFY -/

/-- R160, R161: CLASSIFY completes in every state with the one band whose half-open interval holds the pressure, and
touches nothing but the result record. -/
def Obligations.ClassifyGivesTheBand : Prop :=
  ∀ (s : State) (p : NUM), ∃ b : Band,
    exec (.classify p) s = .next { s with result := some { status := .ok, band := some b } } ∧
    (b = .veryLow ↔ p < 950) ∧
    (b = .low ↔ 950 ≤ p ∧ p < 990) ∧
    (b = .normal ↔ 990 ≤ p ∧ p < 1031) ∧
    (b = .high ↔ 1031 ≤ p ∧ p < 1051) ∧
    (b = .veryHigh ↔ 1051 ≤ p)

/-! ## Rules about the whole machine -/

/-- R146, R149, R150: every operation that runs ends with a result record, and both protocol states are then what the
transition table says for that operation and its status. The rows the source leaves open are the spec's decisions D12
to D14; the rows of the command bytes as instructions are the model's choice, assumption 9. -/
def Obligations.ProtocolFollowsTransitionTable : Prop :=
  ∀ (i : Instr) (s t : State), exec i s = .next t →
    ∃ r, t.result = some r ∧ ∀ k, seqOf t k = seqAfter i r.status k (seqOf s k)

/-- R47, R50, R111: the requests each operation makes, in order, at the end of the history; LOAD's stop early only
with BusTransportError, every transaction is addressed to device 0x77 (R43), and every address it touches is one of
R42's (R46). Order and kinds of the transactions and the addresses of later bytes are the spec's decisions D7, D18
and D22; the command bytes as instructions are the model's choice, assumption 9. -/
def Obligations.OperationsMakeOnlyTheirTransactions : Prop :=
  ∀ (i : Instr) (s t : State), exec i s = .next t →
    ∃ (l : List Transaction) (r : Result), t.bus.trace = s.bus.trace ++ l ∧ t.result = some r ∧
      l.map Transaction.request <+: busRequests i ∧
      (r.status ≠ .busTransportError → l.map Transaction.request = busRequests i) ∧
      (i ≠ .load → l.map Transaction.request = busRequests i) ∧
      ∀ x ∈ l, x.device = 0x77#8 ∧
        ∀ a ∈ touchedAddrs x.request, (0xAA ≤ a ∧ a ≤ 0xBF) ∨ a = 0xF4 ∨ (0xF6 ≤ a ∧ a ≤ 0xF8)

/-- R67, R183: which fields of the result record have a value, by operation and status. The fields without a value
are the spec's decision D16; the command bytes as instructions are the model's choice, assumption 9. -/
def Obligations.ResultFieldsFollowStatus : Prop :=
  ∀ (i : Instr) (s t : State), exec i s = .next t →
    ∃ r, t.result = some r ∧
      ((r.status ≠ .ok) → r.raw = none ∧ r.value = none) ∧
      (startsKind i ≠ none ↔ r.waitMs ≠ none) ∧
      (∀ w, r.waitMs = some w → (r.status = .ok → w ∈ [5, 8, 14, 26]) ∧ (r.status ≠ .ok → w = 0)) ∧
      (readsKind i ≠ none ∧ r.status = .ok ↔ r.raw ≠ none) ∧
      (readsKind i ≠ none ∧ r.status = .ok ↔ r.value ≠ none) ∧
      ((∃ p, i = .classify p) ↔ r.band ≠ none) ∧
      (∀ n, r.raw = some (.tu n) → i = .readT) ∧
      (∀ n, r.raw = some (.up24 n) → ∃ tIn, i = .readP tIn)

/-- R146, R196: the only way to the premise that the wait was honoured is the host's: `elapse(k)`, or a WAIT, while
the conversion is pending. The environment step is the spec's decision D12; the inputs are assumptions 4 and 6. -/
def Obligations.OnlyTheHostsWaitMakesResultReady : Prop :=
  ∀ (s t : State) (k : Kind), step s = .next t → ¬ waitHonoured k s → waitHonoured k t →
    seqOf s k = .conversionPending ∧
    ((∃ rest, s.inputs = .elapse k :: rest) ∨ ∃ d rest, s.inputs = .wait k d :: rest)

/-- R21, R24, R25: only LOAD (and a reset) changes RAW, COEF, `cal_loaded` or `cal_valid`. That a reset is an input
is assumption 7. -/
def Obligations.OnlyLoadChangesCalibration : Prop :=
  ∀ (s t : State), step s = .next t →
    (∀ rest, s.inputs ≠ .reset :: rest) →
    (∀ e rest, s.inputs = .present e :: rest → decode e ≠ .ok .load) →
    t.raw = s.raw ∧ t.coef = s.coef ∧ t.calLoaded = s.calLoaded ∧ t.calValid = s.calValid

/-- R25: "No operation's behaviour depends on it": `cal_valid` influences nothing but itself. A LOAD does the same
whatever the flag was: with a failed read it keeps the flag, and completed it overwrites it. -/
def Obligations.ValidityFlagInfluencesNoOperation : Prop :=
  (∀ (i : Instr) (s : State) (b : Bool), i ≠ .load →
    (∀ t, exec i s = .next t → exec i { s with calValid := b } = .next { t with calValid := b }) ∧
    (∀ r, exec i s = .refused r → exec i { s with calValid := b } = .refused r)) ∧
  (∀ (s t : State) (b : Bool), exec .load s = .next t →
    ((readCalibration s.bus).1 = none →
      t.calValid = s.calValid ∧ exec .load { s with calValid := b } = .next { t with calValid := b }) ∧
    ((readCalibration s.bus).1 ≠ none → exec .load { s with calValid := b } = .next t))

/-- R152 (a): READ_k does not look at its own `seq[k]`: early, unstarted and timely reads are the same function of
the returned bytes. No gating is the spec's decision D12. -/
def Obligations.ReadsIgnoreTheirOwnProtocolState : Prop :=
  ∀ (s : State) (q : SeqState) (tIn : NUM),
    exec .readT { s with seqT := q } = exec .readT s ∧
    exec (.readP tIn) { s with seqP := q } = exec (.readP tIn) s

/-- R31, R190: the invariant holds after reset. The reset values are the spec's decision D10; that the host remembers
no wait and that the bus has no history at reset are the model's choices, assumptions 6 and 2. -/
def Obligations.ResetSatisfiesInvariant : Prop := Consistent State.reset

/-- R24, R25, R33, R20, R147, R198, R67, R42, R47: every step keeps the invariant, from every state that meets it.
The clause on the remembered wait is about the model's own fields, assumption 6. -/
def Obligations.StepKeepsInvariant : Prop :=
  ∀ s t : State, Consistent s → step s = .next t → Consistent t

/-- R204: whatever the host does and the bus answers, the invariant holds along every run from reset. That the host's
inputs and the bus's answers are lists in the state is the model's choice, assumptions 4 and 2. -/
def Obligations.RunsFromResetKeepInvariant : Prop :=
  ∀ (n : Nat) (inputs : List HostInput) (answers : List Answer) (t : State),
    core.run n { State.reset with inputs := inputs, bus := { answers := answers, trace := [] } } = .next t →
    Consistent t

/-- R181, R204: from every state that meets the invariant, an operation that R181 does not refuse runs to a next
state: ordinary data never ends a run. That a second LOAD and a START from a state other than Idle run is the spec's
decisions D9 and D14; the command bytes as instructions are the model's choice, assumption 9. -/
def Obligations.UnrefusedOperationsComplete : Prop :=
  ∀ (i : Instr) (s : State), Consistent s →
    (∀ k, startsKind i = some k ∨ readsKind i = some k →
      s.calLoaded = true ∧ seqOf s (otherKind k) = .idle) →
    ∃ t, exec i s = .next t

/-- R72, the rows MEASURE_T and MEASURE_P: the host's three inputs run START_k, the WAIT of the `wait_ms` it
returned, and READ_k, one a step: after an accepted START the result is ready when READ_k runs; after a failed one
the returned wait is 0 and makes nothing ready. The pseudo-operations are the spec's decision D1; the list of inputs
and the remembered wait are the model's choices, assumptions 4 and 6. -/
def Obligations.MeasureRunsStartWaitRead : Prop :=
  (∀ (s : State) (rest : List HostInput), s.inputs = measureT ++ rest → s.calLoaded = true → s.seqP = .idle →
    ∃ s1 s2, step s = .next s1 ∧ step s1 = .next s2 ∧ step s2 = exec .readT { s2 with inputs := rest } ∧
      exec .startT { s with inputs := .wait .T .returned :: .present (encode .readT) :: rest } = .next s1 ∧
      s2 = { s1 with inputs := .present (encode .readT) :: rest, seqT := s2.seqT } ∧
      (writeAnswer 0xF4#8 [0x2E#8] s.bus = true →
        s1.seqT = .conversionPending ∧ s1.result = some { status := .ok, waitMs := some 5 } ∧
        s2.seqT = .resultReady) ∧
      (writeAnswer 0xF4#8 [0x2E#8] s.bus = false → Consistent s →
        s1.result = some { status := .busTransportError, waitMs := some 0 } ∧ s2.seqT = s.seqT)) ∧
  (∀ (s : State) (oss : Int) (tIn : NUM) (cmd : Byte) (w : Nat) (rest : List HostInput),
    s.inputs = measureP oss tIn ++ rest → Instr.wellFormed (.startP oss) = true →
    (cmd, w) = (if oss = 1 then (0x74#8, 8) else if oss = 2 then (0xB4#8, 14)
      else if oss = 3 then (0xF4#8, 26) else (0x34#8, 5)) →
    s.calLoaded = true → s.seqT = .idle →
    ∃ s1 s2, step s = .next s1 ∧ step s1 = .next s2 ∧ step s2 = exec (.readP tIn) { s2 with inputs := rest } ∧
      exec (.startP oss) { s with inputs := .wait .P .returned :: .present (encode (.readP tIn)) :: rest } =
        .next s1 ∧
      s2 = { s1 with inputs := .present (encode (.readP tIn)) :: rest, seqP := s2.seqP } ∧
      (writeAnswer 0xF4#8 [cmd] s.bus = true →
        s1.seqP = .conversionPending ∧ s1.result = some { status := .ok, waitMs := some w } ∧
        s2.seqP = .resultReady) ∧
      (writeAnswer 0xF4#8 [cmd] s.bus = false → Consistent s →
        s1.result = some { status := .busTransportError, waitMs := some 0 } ∧ s2.seqP = s.seqP))

/-- R68, R69: the codes of the result record: the status codes and which operations return them, the band code of
every pressure, and codes 5 to 7 never produced. The numbers are the spec's decisions D5 and D6; the command bytes as
instructions are the model's choice, assumption 9. -/
def Obligations.ResultCodesFollowTheTables : Prop :=
  (statusCode .ok = 0#2 ∧ statusCode .busTransportError = 1#2 ∧ statusCode .calibrationInvalid = 2#2 ∧
    statusCode .computationError = 3#2) ∧
  (∀ b, (bandCode b).toNat < 5) ∧
  (∀ (s : State) (p : NUM), ∃ b,
    exec (.classify p) s = .next { s with result := some { status := .ok, band := some b } } ∧
    bandCode b = if p < 950 then 0#3 else if p < 990 then 1#3 else if p < 1031 then 2#3
      else if p < 1051 then 3#3 else 4#3) ∧
  (∀ (i : Instr) (s t : State) (r : Result), exec i s = .next t → t.result = some r →
    (statusCode r.status = 1#2 → ∀ p, i ≠ .classify p) ∧
    (statusCode r.status = 2#2 → i = .load) ∧
    (statusCode r.status = 3#2 → readsKind i ≠ none))
end

