-- ==== Sys2Proof/Laws/State.lean ====
section
/-! SUPPORT. What each update of the state does to each field, and the small laws of the accessors: later proofs cite these
and unfold no record update. -/

namespace Sys2Proof.Machine

/-! ## `finish` changes the result record only -/

@[simp] theorem finish_raw (r : Result) (s : State) : (finish r s).raw = s.raw := rfl
@[simp] theorem finish_coef (r : Result) (s : State) : (finish r s).coef = s.coef := rfl
@[simp] theorem finish_calLoaded (r : Result) (s : State) : (finish r s).calLoaded = s.calLoaded :=
  rfl
@[simp] theorem finish_calValid (r : Result) (s : State) : (finish r s).calValid = s.calValid := rfl
@[simp] theorem finish_seqT (r : Result) (s : State) : (finish r s).seqT = s.seqT := rfl
@[simp] theorem finish_seqP (r : Result) (s : State) : (finish r s).seqP = s.seqP := rfl
@[simp] theorem finish_result (r : Result) (s : State) : (finish r s).result = some r := rfl
@[simp] theorem finish_startedWaitT (r : Result) (s : State) : (finish r s).startedWaitT = s.startedWaitT :=
  rfl
@[simp] theorem finish_startedWaitP (r : Result) (s : State) : (finish r s).startedWaitP = s.startedWaitP :=
  rfl
@[simp] theorem finish_inputs (r : Result) (s : State) : (finish r s).inputs = s.inputs := rfl
@[simp] theorem finish_bus (r : Result) (s : State) : (finish r s).bus = s.bus := rfl

/-! ## `raiseError` changes the result record only -/

@[simp] theorem raiseError_raw (e : Status) (s : State) : (raiseError e s).raw = s.raw := rfl
@[simp] theorem raiseError_coef (e : Status) (s : State) : (raiseError e s).coef = s.coef := rfl
@[simp] theorem raiseError_calLoaded (e : Status) (s : State) : (raiseError e s).calLoaded = s.calLoaded :=
  rfl
@[simp] theorem raiseError_calValid (e : Status) (s : State) : (raiseError e s).calValid = s.calValid :=
  rfl
@[simp] theorem raiseError_seqT (e : Status) (s : State) : (raiseError e s).seqT = s.seqT := rfl
@[simp] theorem raiseError_seqP (e : Status) (s : State) : (raiseError e s).seqP = s.seqP := rfl
@[simp] theorem raiseError_result (e : Status) (s : State) : (raiseError e s).result = some { status := e } :=
  rfl
@[simp] theorem raiseError_startedWaitT (e : Status) (s : State) : (raiseError e s).startedWaitT = s.startedWaitT :=
  rfl
@[simp] theorem raiseError_startedWaitP (e : Status) (s : State) : (raiseError e s).startedWaitP = s.startedWaitP :=
  rfl
@[simp] theorem raiseError_inputs (e : Status) (s : State) : (raiseError e s).inputs = s.inputs := rfl
@[simp] theorem raiseError_bus (e : Status) (s : State) : (raiseError e s).bus = s.bus := rfl

/-! ## `setSeq` changes one protocol state only -/

@[simp] theorem setSeq_raw (k : Kind) (v : SeqState) (s : State) : (setSeq k v s).raw = s.raw :=
  by cases k <;> rfl
@[simp] theorem setSeq_coef (k : Kind) (v : SeqState) (s : State) : (setSeq k v s).coef = s.coef :=
  by cases k <;> rfl
@[simp] theorem setSeq_calLoaded (k : Kind) (v : SeqState) (s : State) : (setSeq k v s).calLoaded = s.calLoaded :=
  by cases k <;> rfl
@[simp] theorem setSeq_calValid (k : Kind) (v : SeqState) (s : State) : (setSeq k v s).calValid = s.calValid :=
  by cases k <;> rfl
@[simp] theorem setSeq_result (k : Kind) (v : SeqState) (s : State) : (setSeq k v s).result = s.result :=
  by cases k <;> rfl
@[simp] theorem setSeq_startedWaitT (k : Kind) (v : SeqState) (s : State) : (setSeq k v s).startedWaitT = s.startedWaitT :=
  by cases k <;> rfl
@[simp] theorem setSeq_startedWaitP (k : Kind) (v : SeqState) (s : State) : (setSeq k v s).startedWaitP = s.startedWaitP :=
  by cases k <;> rfl
@[simp] theorem setSeq_inputs (k : Kind) (v : SeqState) (s : State) : (setSeq k v s).inputs = s.inputs :=
  by cases k <;> rfl
@[simp] theorem setSeq_bus (k : Kind) (v : SeqState) (s : State) : (setSeq k v s).bus = s.bus :=
  by cases k <;> rfl
@[simp] theorem setSeq_T_seqT (v : SeqState) (s : State) : (setSeq .T v s).seqT = v := rfl
@[simp] theorem setSeq_T_seqP (v : SeqState) (s : State) : (setSeq .T v s).seqP = s.seqP := rfl
@[simp] theorem setSeq_P_seqT (v : SeqState) (s : State) : (setSeq .P v s).seqT = s.seqT := rfl
@[simp] theorem setSeq_P_seqP (v : SeqState) (s : State) : (setSeq .P v s).seqP = v := rfl

/-! ## `setStartedWait` changes one remembered wait only -/

@[simp] theorem setStartedWait_raw (k : Kind) (w : Nat) (s : State) : (setStartedWait k w s).raw = s.raw :=
  by cases k <;> rfl
@[simp] theorem setStartedWait_coef (k : Kind) (w : Nat) (s : State) : (setStartedWait k w s).coef = s.coef :=
  by cases k <;> rfl
@[simp] theorem setStartedWait_calLoaded (k : Kind) (w : Nat) (s : State) : (setStartedWait k w s).calLoaded = s.calLoaded :=
  by cases k <;> rfl
@[simp] theorem setStartedWait_calValid (k : Kind) (w : Nat) (s : State) : (setStartedWait k w s).calValid = s.calValid :=
  by cases k <;> rfl
@[simp] theorem setStartedWait_seqT (k : Kind) (w : Nat) (s : State) : (setStartedWait k w s).seqT = s.seqT :=
  by cases k <;> rfl
@[simp] theorem setStartedWait_seqP (k : Kind) (w : Nat) (s : State) : (setStartedWait k w s).seqP = s.seqP :=
  by cases k <;> rfl
@[simp] theorem setStartedWait_result (k : Kind) (w : Nat) (s : State) : (setStartedWait k w s).result = s.result :=
  by cases k <;> rfl
@[simp] theorem setStartedWait_inputs (k : Kind) (w : Nat) (s : State) : (setStartedWait k w s).inputs = s.inputs :=
  by cases k <;> rfl
@[simp] theorem setStartedWait_bus (k : Kind) (w : Nat) (s : State) : (setStartedWait k w s).bus = s.bus :=
  by cases k <;> rfl

/-! ## `commitCalibration` changes the calibration and the result record only (R33) -/

@[simp] theorem commitCalibration_raw (v : RawCal) (s : State) : (commitCalibration v s).raw = some v :=
  rfl
@[simp] theorem commitCalibration_coef (v : RawCal) (s : State) : (commitCalibration v s).coef = some (storedCoefs (derive v)) :=
  rfl
@[simp] theorem commitCalibration_calLoaded (v : RawCal) (s : State) : (commitCalibration v s).calLoaded = true :=
  rfl
@[simp] theorem commitCalibration_calValid (v : RawCal) (s : State) : (commitCalibration v s).calValid = allNonzero v :=
  rfl
@[simp] theorem commitCalibration_seqT (v : RawCal) (s : State) : (commitCalibration v s).seqT = s.seqT :=
  rfl
@[simp] theorem commitCalibration_seqP (v : RawCal) (s : State) : (commitCalibration v s).seqP = s.seqP :=
  rfl
@[simp] theorem commitCalibration_result (v : RawCal) (s : State) : (commitCalibration v s).result = some { status := validityStatus (allNonzero v) } :=
  rfl
@[simp] theorem commitCalibration_startedWaitT (v : RawCal) (s : State) : (commitCalibration v s).startedWaitT = s.startedWaitT :=
  rfl
@[simp] theorem commitCalibration_startedWaitP (v : RawCal) (s : State) : (commitCalibration v s).startedWaitP = s.startedWaitP :=
  rfl
@[simp] theorem commitCalibration_inputs (v : RawCal) (s : State) : (commitCalibration v s).inputs = s.inputs :=
  rfl
@[simp] theorem commitCalibration_bus (v : RawCal) (s : State) : (commitCalibration v s).bus = s.bus :=
  rfl

/-! ## `applyReset` keeps the bus and the later inputs (R190, R191) -/

@[simp] theorem applyReset_raw (s : State) : (applyReset s).raw = State.reset.raw := rfl
@[simp] theorem applyReset_coef (s : State) : (applyReset s).coef = State.reset.coef := rfl
@[simp] theorem applyReset_calLoaded (s : State) : (applyReset s).calLoaded = State.reset.calLoaded :=
  rfl
@[simp] theorem applyReset_calValid (s : State) : (applyReset s).calValid = State.reset.calValid :=
  rfl
@[simp] theorem applyReset_seqT (s : State) : (applyReset s).seqT = State.reset.seqT := rfl
@[simp] theorem applyReset_seqP (s : State) : (applyReset s).seqP = State.reset.seqP := rfl
@[simp] theorem applyReset_result (s : State) : (applyReset s).result = State.reset.result := rfl
@[simp] theorem applyReset_startedWaitT (s : State) : (applyReset s).startedWaitT = State.reset.startedWaitT :=
  rfl
@[simp] theorem applyReset_startedWaitP (s : State) : (applyReset s).startedWaitP = State.reset.startedWaitP :=
  rfl
@[simp] theorem applyReset_inputs (s : State) : (applyReset s).inputs = s.inputs := rfl
@[simp] theorem applyReset_bus (s : State) : (applyReset s).bus = s.bus := rfl

/-! ## The accessors `seqOf` and `startedWait` -/

@[simp] theorem seqOf_T (s : State) : seqOf s .T = s.seqT := rfl
@[simp] theorem seqOf_P (s : State) : seqOf s .P = s.seqP := rfl
@[simp] theorem startedWait_T (s : State) : startedWait s .T = s.startedWaitT := rfl
@[simp] theorem startedWait_P (s : State) : startedWait s .P = s.startedWaitP := rfl
@[simp] theorem otherKind_T : otherKind .T = .P := rfl
@[simp] theorem otherKind_P : otherKind .P = .T := rfl
@[simp] theorem otherKind_otherKind (k : Kind) : otherKind (otherKind k) = k := by cases k <;> rfl
@[simp] theorem seqOf_setSeq_same (k : Kind) (v : SeqState) (s : State) : seqOf (setSeq k v s) k = v :=
  by cases k <;> rfl
@[simp] theorem seqOf_setSeq_other (k : Kind) (v : SeqState) (s : State) : seqOf (setSeq k v s) (otherKind k) = seqOf s (otherKind k) :=
  by cases k <;> rfl
@[simp] theorem startedWait_setStartedWait_same (k : Kind) (w : Nat) (s : State) : startedWait (setStartedWait k w s) k = some w :=
  by cases k <;> rfl

/-! ## The bus record -/

@[simp] theorem busRecord_answers (q : Request) (a : Answer) (b : Bus) : (busRecord q a b).answers = b.answers.tail :=
  rfl
@[simp] theorem busRecord_trace (q : Request) (a : Answer) (b : Bus) : (busRecord q a b).trace = b.trace ++ [⟨0x77#8, q, a⟩] :=
  rfl
@[simp] theorem rnd_eq (q : NUM) : Config.rnd q = q := rfl
@[simp] theorem storedCoefs_eq (c : Coefs) : storedCoefs c = c := rfl

end Sys2Proof.Machine
end

