-- ==== Sys2Proof/Laws/Ops.lean ====
section
/-! SUPPORT. One law per shared operation: everything it can do, said once. -/

namespace Sys2Proof.Machine

/-! ## The bus primitives and the accessor -/

@[simp] theorem memRead_fst (a : Addr) (n : Nat) (b : Bus) : (memRead a n b).1 = readAnswer a n b := rfl

@[simp] theorem memRead_snd (a : Addr) (n : Nat) (b : Bus) :
    (memRead a n b).2 = busRecord (.read a n) (readOutcome (readAnswer a n b)) b := rfl

@[simp] theorem rdI16_fst (a : Addr) (b : Bus) :
    (rdI16 a b).1 = (readAnswer a 2 b).map fun v => i16be v[0] v[1] := rfl

@[simp] theorem rdI16_snd (a : Addr) (b : Bus) : (rdI16 a b).2 = (memRead a 2 b).2 := rfl

@[simp] theorem rdU16_fst (a : Addr) (b : Bus) :
    (rdU16 a b).1 = (readAnswer a 2 b).map fun v => u16be v[0] v[1] := rfl

@[simp] theorem rdU16_snd (a : Addr) (b : Bus) : (rdU16 a b).2 = (memRead a 2 b).2 := rfl

@[simp] theorem rdBytes_fst (a : Addr) (n : Nat) (b : Bus) : (rdBytes a n b).1 = readAnswer a n b := rfl

@[simp] theorem rdBytes_snd (a : Addr) (n : Nat) (b : Bus) : (rdBytes a n b).2 = (memRead a n b).2 := rfl

@[simp] theorem wrBytes_fst (a : Addr) (bytes : List Byte) (b : Bus) :
    (wrBytes a bytes b).1 = writeAnswer a bytes b := rfl

@[simp] theorem wrBytes_snd (a : Addr) (bytes : List Byte) (b : Bus) :
    (wrBytes a bytes b).2 = busRecord (.write a bytes) (writeOutcome (writeAnswer a bytes b)) b := rfl

/-- Two listed bytes answer a two-byte read. -/
theorem readAnswer_two {a : Addr} {b : Bus} {hi lo : Byte} {rest : List Answer}
    (h : b.answers = .ok [hi, lo] :: rest) : readAnswer a 2 b = some #v[hi, lo] := by
  simp [readAnswer, h]

/-- A listed failure fails a read. -/
theorem readAnswer_failed {a : Addr} {n : Nat} {b : Bus} {rest : List Answer}
    (h : b.answers = .failed :: rest) : readAnswer a n b = none := by
  simp [readAnswer, h]

/-- A sequence of reads goes on where the first one gave a value. -/
theorem readThen_some {α β : Type} {f : Bus → Option α × Bus} {g : α → Bus → Option β × Bus} {b : Bus} {x : α}
    (h : (f b).1 = some x) : readThen f g b = g x (f b).2 := by
  unfold readThen
  split <;> simp_all

/-- A sequence of reads stops where the first one failed (R111). -/
theorem readThen_none {α β : Type} {f : Bus → Option α × Bus} {g : α → Bus → Option β × Bus} {b : Bus}
    (h : (f b).1 = none) : readThen f g b = (none, (f b).2) := by
  unfold readThen
  split <;> simp_all

/-! ## Refusals -/

/-- A sequencer operation runs where it is not refused (R151, R152). -/
theorem unlessRefused_runs {k : Kind} {s : State} (run : Step) (hl : s.calLoaded = true)
    (ho : seqOf s (otherKind k) = .idle) : unlessRefused k s run = run := by
  simp [unlessRefused, sequencerRefusal, hl, ho]

/-- Where a sequencer operation answered, it was not refused. -/
theorem unlessRefused_next {k : Kind} {s t : State} {run : Step} (h : unlessRefused k s run = .next t) :
    s.calLoaded = true ∧ seqOf s (otherKind k) = .idle ∧ run = .next t := by
  unfold unlessRefused sequencerRefusal at h
  cases hl : s.calLoaded <;> by_cases ho : seqOf s (otherKind k) = .idle <;> simp_all

/-- A sequencer operation before LOAD is refused (R181 b). -/
theorem unlessRefused_notLoaded {k : Kind} {s : State} (run : Step) (hl : s.calLoaded = false) :
    unlessRefused k s run = .refused .calibrationNotLoaded := by
  simp [unlessRefused, sequencerRefusal, hl]

/-- A sequencer operation while the other kind is not Idle is refused (R181 c). -/
theorem unlessRefused_otherBusy {k : Kind} {s : State} (run : Step) (hl : s.calLoaded = true)
    (ho : seqOf s (otherKind k) ≠ .idle) :
    unlessRefused k s run = .refused (.otherKindNotIdle (otherKind k)) := by
  simp [unlessRefused, sequencerRefusal, hl, ho]

/-- An operation that always answers once it runs is refused exactly for the reasons of R181 (b) and (c). -/
theorem unlessRefused_answers_refused_iff {k : Kind} {s t : State} {r : Refusal} :
    unlessRefused k s (.next t) = .refused r ↔ sequencerRefusal k s = some r := by
  unfold unlessRefused
  cases sequencerRefusal k s <;> simp

/-- An operation that reads `COEF` runs on the values it holds. -/
@[simp] theorem withCoefs_holds {s : State} {c : Coefs} (run : Coefs → Step) (hc : s.coef = some c) :
    withCoefs s run = run c := by
  simp [withCoefs, hc]

/-- While `COEF` holds no value, an operation that reads it is refused (R7, R181 b). -/
@[simp] theorem withCoefs_noValue {s : State} (run : Coefs → Step) (hc : s.coef = none) :
    withCoefs s run = .refused .calibrationNotLoaded := by
  simp [withCoefs, hc]

/-- Where an operation that reads `COEF` answered, the registers held values. -/
theorem withCoefs_next {s t : State} {run : Coefs → Step} (h : withCoefs s run = .next t) :
    ∃ c, s.coef = some c ∧ run c = .next t := by
  cases hc : s.coef with
  | none => simp [hc] at h
  | some c => exact ⟨c, rfl, by simpa [hc] using h⟩

/-! ## The start procedure -/

/-- `start(k, cmd, w)` with the write accepted (R131). -/
theorem startConversion_accepted {k : Kind} {cmd : Byte} {w : Nat} {s : State}
    (h : writeAnswer controlAddr [cmd] s.bus = true) :
    startConversion k cmd w s =
      finish { status := .ok, waitMs := some w } (setStartedWait k w (setSeq k .conversionPending
        { s with bus := busRecord (.write controlAddr [cmd]) (.ok []) s.bus })) := by
  cases k <;> simp [startConversion, setSeq, h, writeOutcome]

/-- `start(k, cmd, w)` with the write failed: `seq[k]` keeps its value (R131, R150). -/
theorem startConversion_failed {k : Kind} {cmd : Byte} {w : Nat} {s : State}
    (h : writeAnswer controlAddr [cmd] s.bus = false) :
    startConversion k cmd w s =
      finish { status := .busTransportError, waitMs := some 0 }
        { s with bus := busRecord (.write controlAddr [cmd]) .failed s.bus } := by
  cases k <;> simp [startConversion, setSeq, h, writeOutcome, seqOf]

/-- The start procedure leaves the host's inputs alone. -/
@[simp] theorem startConversion_inputs (k : Kind) (cmd : Byte) (w : Nat) (s : State) :
    (startConversion k cmd w s).inputs = s.inputs := by
  cases h : writeAnswer controlAddr [cmd] s.bus
  · simp [startConversion_failed h]
  · simp [startConversion_accepted h]

/-! ## The ends of the reads -/

/-- READ_T ends with one of three result records; nothing but the result record changes. -/
theorem finishReadT_eq (c : Coefs) (tu : Option Nat) (s : State) :
    ∃ r, finishReadT c tu s = { s with result := some r } ∧
      (r = { status := .busTransportError } ∨ r = { status := .computationError } ∨
        ∃ n v, r = { status := .ok, raw := some (.tu n), value := some v }) := by
  unfold finishReadT
  split
  · exact ⟨_, rfl, .inl rfl⟩
  · split
    · exact ⟨_, rfl, .inr (.inl rfl)⟩
    · exact ⟨_, rfl, .inr (.inr ⟨_, _, rfl⟩)⟩

/-- READ_P ends with one of three result records; nothing but the result record changes. -/
theorem finishReadP_eq (c : Coefs) (t : NUM) (bytes : Option (Vector Byte 3)) (s : State) :
    ∃ r, finishReadP c t bytes s = { s with result := some r } ∧
      (r = { status := .busTransportError } ∨ r = { status := .computationError } ∨
        ∃ n v, r = { status := .ok, raw := some (.up24 n), value := some v }) := by
  unfold finishReadP
  split
  · exact ⟨_, rfl, .inl rfl⟩
  · dsimp only
    split
    · exact ⟨_, rfl, .inr (.inl rfl)⟩
    · exact ⟨_, rfl, .inr (.inr ⟨_, _, rfl⟩)⟩

end Sys2Proof.Machine
end

