-- ==== Sys2Proof/Laws/Calibration.lean ====
section
/-! SUPPORT. Sequences of bus reads: which transactions they make and what they return, and so what the eleven reads of LOAD
can do. -/

namespace Sys2Proof.Machine

/-- The two's-complement word of two bytes is in its range (R83). -/
theorem i16be_range (b0 b1 : Byte) : inS16 (i16be b0 b1) := by
  have h0 := b0.isLt
  have h1 := b1.isLt
  unfold inS16 i16be sext16 u16be
  split <;> omega

/-- The unsigned word of two bytes is in its range (R83). -/
theorem u16be_range (b0 b1 : Byte) : inU16 (u16be b0 b1) := by
  have h0 := b0.isLt
  have h1 := b1.isLt
  unfold inU16 u16be
  omega

/-- What a sequence of reads can do: it adds transactions to the history, whose requests are `reqs`, or a beginning
of `reqs` where it failed; each goes to the block's device and is all-or-nothing; a value it returns is `good`. -/
def Reads {α : Type} (f : Bus → Option α × Bus) (reqs : List Request) (good : α → Prop) : Prop :=
  ∀ b, ∃ l : List Transaction, (f b).2.trace = b.trace ++ l ∧
    l.map Transaction.request <+: reqs ∧
    ((f b).1.isSome = true → l.map Transaction.request = reqs) ∧
    (∀ x ∈ l, x.device = 0x77#8 ∧ ∀ a n bytes, x.request = .read a n → x.answer = .ok bytes → bytes.length = n) ∧
    ∀ a, (f b).1 = some a → good a

/-- One read is one transaction. -/
theorem reads_memRead (a : Addr) (n : Nat) : Reads (memRead a n) [.read a n] fun _ => True := by
  intro b
  refine ⟨[⟨0x77#8, .read a n, readOutcome (readAnswer a n b)⟩], rfl, by simp, by simp, ?_, by simp⟩
  intro x hx
  obtain rfl := List.mem_singleton.mp hx
  refine ⟨rfl, fun a' n' bytes hq ha => ?_⟩
  obtain ⟨rfl, rfl⟩ := Request.read.inj hq
  cases h : readAnswer a n b <;> simp [h, readOutcome] at ha
  simp [← ha]

theorem reads_rdI16 (a : Addr) : Reads (rdI16 a) [.read a 2] inS16 := by
  intro b
  obtain ⟨l, h1, h2, h3, h4, -⟩ := reads_memRead a 2 b
  refine ⟨l, h1, h2, by simpa using h3, h4, fun x hx => ?_⟩
  simp only [rdI16_fst, Option.map_eq_some_iff] at hx
  obtain ⟨v, -, rfl⟩ := hx
  exact i16be_range _ _

theorem reads_rdU16 (a : Addr) : Reads (rdU16 a) [.read a 2] fun x => inU16 x := by
  intro b
  obtain ⟨l, h1, h2, h3, h4, -⟩ := reads_memRead a 2 b
  refine ⟨l, h1, h2, by simpa using h3, h4, fun x hx => ?_⟩
  simp only [rdU16_fst, Option.map_eq_some_iff] at hx
  obtain ⟨v, -, rfl⟩ := hx
  exact u16be_range _ _

/-- Sequences of reads put together (R111). -/
theorem reads_readThen {α β : Type} {f : Bus → Option α × Bus} {g : α → Bus → Option β × Bus}
    {r₁ r₂ : List Request} {p : α → Prop} {q : β → Prop} (hf : Reads f r₁ p)
    (hg : ∀ a, p a → Reads (g a) r₂ q) : Reads (readThen f g) (r₁ ++ r₂) q := by
  intro b
  obtain ⟨l₁, t₁, pre₁, full₁, ok₁, good₁⟩ := hf b
  cases h : (f b).1 with
  | none =>
    rw [readThen_none h]
    exact ⟨l₁, t₁, pre₁.trans (List.prefix_append _ _), by simp, ok₁, by simp⟩
  | some a =>
    rw [readThen_some h]
    obtain ⟨l₂, t₂, pre₂, full₂, ok₂, good₂⟩ := hg a (good₁ a h) (f b).2
    have e₁ : l₁.map Transaction.request = r₁ := full₁ (by simp [h])
    refine ⟨l₁ ++ l₂, by simp [t₂, t₁], ?_, fun hs => ?_, fun x hx => ?_, good₂⟩
    · rw [List.map_append, e₁]
      exact (List.prefix_append_right_inj _).mpr pre₂
    · rw [List.map_append, e₁, full₂ hs]
    · rcases List.mem_append.mp hx with hx | hx
      · exact ok₁ x hx
      · exact ok₂ x hx

/-- The end of a sequence of reads. -/
theorem reads_done {α : Type} {q : α → Prop} {a : α} (h : q a) : Reads (fun b => (some a, b)) [] q := by
  intro b
  exact ⟨[], by simp, by simp, by simp, by simp, by simp [h]⟩

/-- The eleven reads of LOAD (R110, R111, R20): their requests in order, and every register in its range. -/
theorem reads_readCalibration :
    Reads readCalibration (calRegisters.map fun r => .read r.1 2) RawInRange := by
  unfold readCalibration
  refine reads_readThen (reads_rdI16 _) fun _ h0 => ?_
  refine reads_readThen (reads_rdI16 _) fun _ h1 => ?_
  refine reads_readThen (reads_rdI16 _) fun _ h2 => ?_
  refine reads_readThen (reads_rdU16 _) fun _ h3 => ?_
  refine reads_readThen (reads_rdU16 _) fun _ h4 => ?_
  refine reads_readThen (reads_rdU16 _) fun _ h5 => ?_
  refine reads_readThen (reads_rdI16 _) fun _ h6 => ?_
  refine reads_readThen (reads_rdI16 _) fun _ h7 => ?_
  refine reads_readThen (reads_rdI16 _) fun _ h8 => ?_
  refine reads_readThen (reads_rdI16 _) fun _ h9 => ?_
  refine reads_readThen (reads_rdI16 _) fun _ h10 => ?_
  exact reads_done ⟨h0, h1, h2, h3, h4, h5, h6, h7, h8, h9, h10⟩

/-- LOAD with a failed read: the result record and the bus change, nothing else (R116). -/
theorem execLoad_failed {s : State} (h : (readCalibration s.bus).1 = none) :
    execLoad s = .next { s with
      bus := (readCalibration s.bus).2
      result := some { status := .busTransportError } } := by
  simp [execLoad, h, raiseError, finish]

/-- LOAD with every read answered: everything is committed in one step (R110, R116). -/
theorem execLoad_loaded {s : State} {v : RawCal} (h : (readCalibration s.bus).1 = some v) :
    execLoad s = .next { s with
      bus := (readCalibration s.bus).2
      raw := some v
      coef := some (derive v)
      calLoaded := true
      calValid := allNonzero v
      result := some { status := validityStatus (allNonzero v) } } := by
  simp [execLoad, h, commitCalibration, finish]

/-! ## Reads answered from the listed answers -/

/-- A signed read answered with two listed bytes (R101). -/
theorem readThen_rdI16_ok {β : Type} (a : Addr) (hi lo : Byte) (rest : List Answer) (tr : List Transaction)
    (g : Int → Bus → Option β × Bus) :
    readThen (rdI16 a) g ⟨.ok [hi, lo] :: rest, tr⟩ =
      g (i16be hi lo) ⟨rest, tr ++ [⟨0x77#8, .read a 2, .ok [hi, lo]⟩]⟩ := rfl

/-- An unsigned read answered with two listed bytes (R102). -/
theorem readThen_rdU16_ok {β : Type} (a : Addr) (hi lo : Byte) (rest : List Answer) (tr : List Transaction)
    (g : Nat → Bus → Option β × Bus) :
    readThen (rdU16 a) g ⟨.ok [hi, lo] :: rest, tr⟩ =
      g (u16be hi lo) ⟨rest, tr ++ [⟨0x77#8, .read a 2, .ok [hi, lo]⟩]⟩ := rfl

/-- A signed read answered with a listed failure (R104). -/
theorem readThen_rdI16_failed {β : Type} (a : Addr) (rest : List Answer) (tr : List Transaction)
    (g : Int → Bus → Option β × Bus) :
    readThen (rdI16 a) g ⟨.failed :: rest, tr⟩ =
      (none, ⟨rest, tr ++ [⟨0x77#8, .read a 2, .failed⟩]⟩) := rfl

/-- An unsigned read answered with a listed failure (R104). -/
theorem readThen_rdU16_failed {β : Type} (a : Addr) (rest : List Answer) (tr : List Transaction)
    (g : Nat → Bus → Option β × Bus) :
    readThen (rdU16 a) g ⟨.failed :: rest, tr⟩ =
      (none, ⟨rest, tr ++ [⟨0x77#8, .read a 2, .failed⟩]⟩) := rfl

/-! ## The value of a register and the validity check -/

/-- The signed value of a calibration register (R42) is the layout I16BE's (R70). -/
theorem calValue_signed (hi lo : Byte) : calValue true hi lo = i16be hi lo := by
  unfold calValue i16be sext16 u16be
  simp only [Bool.true_and, decide_eq_true_eq]
  split <;> split <;> push_cast <;> omega

/-- The unsigned value of a calibration register (R42) is the layout U16BE's (R70). -/
theorem calValue_unsigned (hi lo : Byte) : calValue false hi lo = (u16be hi lo : Int) := by
  simp [calValue, u16be]

/-- The validity check (R115) is about every register of `RAW`. -/
theorem allNonzero_eq (v : RawCal) : allNonzero v = decide (∀ x ∈ rawList v, x ≠ 0) := by
  simp [allNonzero, rawList, Bool.and_assoc]

end Sys2Proof.Machine
end

