-- ==== Sys2Proof/Laws/Environment.lean ====
section
/-! SUPPORT. What a step does with the host's oldest input, and what a WAIT can do (spec/30_encoding.md rule R72). -/

namespace Sys2Proof.Machine

/-- A step runs the oldest pending input on the state without it (assumption 4). -/
theorem step_input {s : State} {i : HostInput} {rest : List HostInput} (h : s.inputs = i :: rest) :
    step s = runInput i { s with inputs := rest } := by
  simp only [step, h]

/-- A step with no pending input changes nothing (R31, assumption 4). -/
theorem step_idle {s : State} (h : s.inputs = []) : step s = .next s := by
  simp only [step, h]

/-- A WAIT is `elapse(k)` where a conversion is pending and the wait is at least its `wait_ms` (R72, R148). -/
theorem runWait_elapses {k : Kind} {d : WaitLength} {s : State} {w : Nat} (hp : seqOf s k = .conversionPending)
    (hw : startedWait s k = some w) (hle : w ≤ waitedMs d s) : runWait k d s = setSeq k .resultReady s := by
  simp [runWait, hp, hw, hle]

/-- Every other WAIT changes nothing (R72). -/
theorem runWait_keeps {k : Kind} {d : WaitLength} {s : State}
    (h : ¬ ∃ w, seqOf s k = .conversionPending ∧ startedWait s k = some w ∧ w ≤ waitedMs d s) :
    runWait k d s = s := by
  unfold runWait
  split
  · next w hp hw => exact if_neg fun hle => h ⟨w, hp, hw, hle⟩
  · rfl

/-- The wait just returned is the `wait_ms` of the last result record, and 0 where it has none (assumption 6). -/
theorem waitedMs_returned (s : State) : waitedMs .returned s = (s.result.bind Result.waitMs).getD 0 := by
  unfold waitedMs
  cases s.result <;> rfl

end Sys2Proof.Machine
end

