-- ==== Sys2Proof/Laws/Exec.lean ====
section
/-! SUPPORT. What each meaning does where it runs, and one inversion law for `exec`: everything an operation that answered can
have done. -/

namespace Sys2Proof.Machine

/-- READ_T where it is not refused (R133): the end of the read on the two bytes of RESULT. -/
theorem execReadT_runs {s : State} {c : Coefs} (hl : s.calLoaded = true) (hp : s.seqP = .idle)
    (hc : s.coef = some c) :
    execReadT s = .next (finishReadT c (rdU16 resultAddr s.bus).1
      (setSeq .T .idle { s with bus := (rdU16 resultAddr s.bus).2 })) := by
  unfold execReadT
  rw [unlessRefused_runs _ hl (by simpa using hp), withCoefs_holds _ hc]

/-- READ_P where it is not refused (R140): the end of the read on the three bytes of RESULT. -/
theorem execReadP_runs {s : State} {c : Coefs} (tIn : NUM) (hl : s.calLoaded = true) (ht : s.seqT = .idle)
    (hc : s.coef = some c) :
    execReadP tIn s = .next (finishReadP c tIn (rdBytes resultAddr 3 s.bus).1
      (setSeq .P .idle { s with bus := (rdBytes resultAddr 3 s.bus).2 })) := by
  unfold execReadP
  rw [unlessRefused_runs _ hl (by simpa using ht), withCoefs_holds _ hc]

/-- Every address a legal transaction touches is one of R42's (R46). -/
theorem touchedAddrs_legal {q : Request} (h : requestLegal q) :
    ∀ a ∈ touchedAddrs q, (0xAA ≤ a ∧ a ≤ 0xBF) ∨ a = 0xF4 ∨ (0xF6 ≤ a ∧ a ≤ 0xF8) := by
  cases q with
  | read addr n =>
    rcases h with ⟨rfl, h⟩ | ⟨rfl, rfl⟩
    · simp only [calRegisters, List.map_cons, List.map_nil, List.mem_cons, List.not_mem_nil, or_false] at h
      rcases h with (rfl | rfl | rfl | rfl | rfl | rfl | rfl | rfl | rfl | rfl | rfl) | rfl <;> decide
    · decide
  | write addr bytes =>
    obtain ⟨rfl, cmd, -, rfl⟩ := h
    exact fun a ha => .inr (.inl (by simpa [touchedAddrs] using ha))

/-- The requests of every operation are legal (R42, R47). -/
theorem busRequests_legal {i : Instr} {q : Request} (h : q ∈ busRequests i) : requestLegal q := by
  cases i with
  | load =>
    obtain ⟨r, hr, rfl⟩ := List.mem_map.mp h
    exact .inl ⟨rfl, .inl (List.mem_map_of_mem hr)⟩
  | readT =>
    obtain rfl := List.mem_singleton.mp h
    exact .inl ⟨rfl, .inr rfl⟩
  | readP _ =>
    obtain rfl := List.mem_singleton.mp h
    exact .inr ⟨rfl, rfl⟩
  | classify _ => simp [busRequests] at h
  | startP oss =>
    obtain rfl := List.mem_singleton.mp h
    refine ⟨rfl, _, ?_, rfl⟩
    split_ifs <;> decide
  | startT | cmdTemperature | cmdPressureOss0 | cmdPressureOss1 | cmdPressureOss2 | cmdPressureOss3 =>
    obtain rfl := List.mem_singleton.mp h
    exact ⟨rfl, _, by decide, rfl⟩

/-- The invariant does not speak of the host's inputs. -/
theorem Consistent.withInputs {s : State} (h : Consistent s) (inputs : List HostInput) :
    Consistent { s with inputs := inputs } where
  loaded := h.loaded
  derived := h.derived
  valid := h.valid
  range := h.range
  settled
    | .T => h.settled .T
    | .P => h.settled .P
  oneKind := h.oneKind
  started := h.started
  wait
    | .T => h.wait .T
    | .P => h.wait .P
  result := h.result
  trace := h.trace

/-- What an operation that answered can have done. -/
inductive ExecCase (i : Instr) (s t : State) : Prop
  /-- LOAD whose reads did not all succeed (R116). -/
  | loadFailed : i = .load → (readCalibration s.bus).1 = none →
      t = { s with bus := (readCalibration s.bus).2, result := some { status := .busTransportError } } →
      ExecCase i s t
  /-- LOAD with every register read (R110). -/
  | loaded (v : RawCal) : i = .load → (readCalibration s.bus).1 = some v →
      t = { s with
        bus := (readCalibration s.bus).2
        raw := some v
        coef := some (derive v)
        calLoaded := true
        calValid := allNonzero v
        result := some { status := validityStatus (allNonzero v) } } → ExecCase i s t
  /-- A start of kind `k` (R131). -/
  | start (k : Kind) (cmd : Byte) (w : Nat) : startsKind i = some k → busRequests i = [.write 0xF4#8 [cmd]] →
      cmd ∈ commandBytes → legalWait k w → s.calLoaded = true → seqOf s (otherKind k) = .idle →
      t = startConversion k cmd w s → ExecCase i s t
  /-- READ_T (R133). -/
  | readT (r : Result) : i = .readT → s.seqP = .idle →
      (r = { status := .busTransportError } ∨ r = { status := .computationError } ∨
        ∃ n v, r = { status := .ok, raw := some (.tu n), value := some v }) →
      t = { s with seqT := .idle, bus := (memRead 0xF6#8 2 s.bus).2, result := some r } → ExecCase i s t
  /-- READ_P (R140). -/
  | readP (tIn : NUM) (r : Result) : i = .readP tIn → s.seqT = .idle →
      (r = { status := .busTransportError } ∨ r = { status := .computationError } ∨
        ∃ n v, r = { status := .ok, raw := some (.up24 n), value := some v }) →
      t = { s with seqP := .idle, bus := (memRead 0xF6#8 3 s.bus).2, result := some r } → ExecCase i s t
  /-- CLASSIFY (R160). -/
  | classify (p : NUM) : i = .classify p →
      t = { s with result := some { status := .ok, band := some (bandOf p) } } → ExecCase i s t

/-- A start that answered was not refused and ran the start procedure. -/
theorem start_case {i : Instr} {s t : State} {k : Kind} {cmd : Byte} {w : Nat}
    (h : unlessRefused k s (.next (startConversion k cmd w s)) = .next t) (hk : startsKind i = some k)
    (hr : busRequests i = [.write 0xF4#8 [cmd]]) (hc : cmd ∈ commandBytes) (hw : legalWait k w) :
    ExecCase i s t := by
  obtain ⟨hl, ho, h⟩ := unlessRefused_next h
  exact .start k cmd w hk hr hc hw hl ho (Host.Outcome.next.inj h).symm

/-- The inversion law of `exec`. -/
theorem exec_cases {i : Instr} {s t : State} (h : exec i s = .next t) : ExecCase i s t := by
  cases i with
  | load =>
    change execLoad s = .next t at h
    cases hv : (readCalibration s.bus).1 with
    | none =>
      rw [execLoad_failed hv] at h
      exact .loadFailed rfl hv (Host.Outcome.next.inj h).symm
    | some v =>
      rw [execLoad_loaded hv] at h
      exact .loaded v rfl hv (Host.Outcome.next.inj h).symm
  | startT => exact start_case h rfl rfl (by decide) rfl
  | startP oss =>
    refine start_case (i := .startP oss) h rfl ?_ ?_ ?_ <;> unfold effectiveOss
    · simp only [busRequests]; split_ifs <;> rfl
    · split_ifs <;> decide
    · split_ifs <;> simp [legalWait, pressureWait]
  | readT =>
    obtain ⟨hl, ho, h'⟩ := unlessRefused_next (show unlessRefused _ _ _ = _ from h)
    obtain ⟨c, hc, -⟩ := withCoefs_next h'
    obtain ⟨r, e, hr⟩ := finishReadT_eq c (rdU16 resultAddr s.bus).1
      (setSeq .T .idle { s with bus := (rdU16 resultAddr s.bus).2 })
    exact .readT r rfl ho hr ((Host.Outcome.next.inj (h.symm.trans (execReadT_runs hl ho hc))).trans e)
  | readP tIn =>
    obtain ⟨hl, ho, h'⟩ := unlessRefused_next (show unlessRefused _ _ _ = _ from h)
    obtain ⟨c, hc, -⟩ := withCoefs_next h'
    obtain ⟨r, e, hr⟩ := finishReadP_eq c tIn (rdBytes resultAddr 3 s.bus).1
      (setSeq .P .idle { s with bus := (rdBytes resultAddr 3 s.bus).2 })
    exact .readP tIn r rfl ho hr ((Host.Outcome.next.inj (h.symm.trans (execReadP_runs tIn hl ho hc))).trans e)
  | classify p => exact .classify p rfl (Host.Outcome.next.inj h).symm
  | cmdTemperature => exact start_case h rfl rfl (by decide) rfl
  | cmdPressureOss0 => exact start_case h rfl rfl (by decide) (by simp [legalWait])
  | cmdPressureOss1 => exact start_case h rfl rfl (by decide) (by simp [legalWait])
  | cmdPressureOss2 => exact start_case h rfl rfl (by decide) (by simp [legalWait])
  | cmdPressureOss3 => exact start_case h rfl rfl (by decide) (by simp [legalWait])

/-- What the start procedure can do: accepted or failed (R131). -/
theorem startConversion_cases (k : Kind) (cmd : Byte) (w : Nat) (s : State) :
    (startConversion k cmd w s =
      finish { status := .ok, waitMs := some w } (setStartedWait k w (setSeq k .conversionPending
        { s with bus := busRecord (.write controlAddr [cmd]) (.ok []) s.bus }))) ∨
    (startConversion k cmd w s =
      finish { status := .busTransportError, waitMs := some 0 }
        { s with bus := busRecord (.write controlAddr [cmd]) .failed s.bus }) := by
  cases h : writeAnswer controlAddr [cmd] s.bus
  · exact .inr (startConversion_failed h)
  · exact .inl (startConversion_accepted h)

end Sys2Proof.Machine
end

