-- ==== Sys2Proof/Laws/PerInstr.lean ====
section
/-! SUPPORT. The family TableBits: the encoding of each instruction carries the format and the fixed bits that its row of
spec/opcode_table.json gives it (`match` under `mask`). -/

namespace Sys2Proof

/-- The packed word of START_P holds its code in bits 2:0 (R60). -/
theorem opField_startP (oss : Int) : opField (BitVec.ofInt 32 oss ++ 0#5 ++ 3#3) = 3#3 := by
  have h1 := BitVec.toNat_append (x := BitVec.ofInt 32 oss ++ 0#5) (y := 3#3)
  rw [Nat.shiftLeft_eq, Nat.mul_comm, ← Nat.two_pow_add_eq_or_of_lt (3#3).isLt] at h1
  apply BitVec.eq_of_toNat_eq
  unfold opField
  rw [BitVec.extractLsb'_toNat, h1]
  simp only [BitVec.toNat_ofNat, Nat.shiftRight_zero]
  omega

namespace Laws.TableBits

/-- The row of an instruction: whether it is of format OP, and its `match` (under the mask 0x7 of OP, 0xFF of
CTRL_BYTE). -/
def row : Instr → Bool × Nat
  | .load => (true, 0)
  | .startT => (true, 1)
  | .readT => (true, 2)
  | .startP _ => (true, 3)
  | .readP _ => (true, 4)
  | .classify _ => (true, 5)
  | .cmdTemperature => (false, 0x2E)
  | .cmdPressureOss0 => (false, 0x34)
  | .cmdPressureOss1 => (false, 0x74)
  | .cmdPressureOss2 => (false, 0xB4)
  | .cmdPressureOss3 => (false, 0xF4)

/-- The encoding of `i` has the format and the fixed bits of its row. -/
def Statement (i : Instr) : Prop :=
  match encode i with
  | .op r => row i = (true, (opField r.word).toNat)
  | .ctrlByte b => row i = (false, b.toNat)

theorem load : Statement .load := rfl
theorem startT : Statement .startT := rfl
theorem readT : Statement .readT := rfl
theorem startP (oss : Int) : Statement (.startP oss) := by
  simp only [Statement, encode, row, opField_startP]
  rfl
theorem readP (tIn : NUM) : Statement (.readP tIn) := rfl
theorem classify (pIn : NUM) : Statement (.classify pIn) := rfl
theorem cmdTemperature : Statement .cmdTemperature := rfl
theorem cmdPressureOss0 : Statement .cmdPressureOss0 := rfl
theorem cmdPressureOss1 : Statement .cmdPressureOss1 := rfl
theorem cmdPressureOss2 : Statement .cmdPressureOss2 := rfl
theorem cmdPressureOss3 : Statement .cmdPressureOss3 := rfl

end Laws.TableBits

end Sys2Proof
end

