-- ==== Sys2Proof/Laws/Run.lean ====
section
/-! SUPPORT. The induction over runs (spec/70_reset_and_hazards.md rule R204), packaged once. -/

/-- What every step keeps holds at the end of every run from a state where it holds. -/
theorem Sys2Proof.run_keeps {M : Host.Core} {P : M.State → Prop}
    (keeps : ∀ s t, P s → M.step s = .next t → P t) :
    ∀ (n : Nat) (s t : M.State), P s → M.run n s = .next t → P t := by
  intro n
  induction n with
  | zero =>
    intro s t hs h
    cases h
    exact hs
  | succ n ih =>
    intro s t hs h
    simp only [Host.Core.run] at h
    split at h
    · next s' hs' => exact ih s' t (keeps s s' hs hs') h
    · cases h
    · cases h
end

