-- ==== Sys2Proof/Tests/Slice0.lean ====
section
/-! SUPPORT. The model's own tests, with expected results from spec/95_test_vectors.md, and for every statement that has
hypotheses a witness that meets them. -/

namespace Sys2Proof.Machine

/-! ## Small states -/

/-- The sample calibration set S (R120). -/
def sampleRaw : RawCal :=
  { ac1 := 408, ac2 := -72, ac3 := -14383, ac4 := 32741, ac5 := 32757, ac6 := 23153, vb1 := 6190, vb2 := 4,
    mb := -32768, mc := -8711, md := 2868 }

/-- The eleven byte pairs of the sample set (R120). -/
def sampleBytes : List (Byte × Byte) :=
  [(0x01#8, 0x98#8), (0xFF#8, 0xB8#8), (0xC7#8, 0xD1#8), (0x7F#8, 0xE5#8), (0x7F#8, 0xF5#8), (0x5A#8, 0x71#8),
   (0x18#8, 0x2E#8), (0x00#8, 0x04#8), (0x80#8, 0x00#8), (0xDD#8, 0xF9#8), (0x0B#8, 0x34#8)]

/-- Set Z of the vectors: a valid calibration whose temperature divisor is zero at `tu` = 150. -/
def rawZ : RawCal :=
  { ac1 := 1, ac2 := 1, ac3 := 1, ac4 := 1, ac5 := 32768, ac6 := 100, vb1 := 1, vb2 := 1, mb := 1, mc := 1, md := -50 }

/-- Set Y of the vectors: a valid calibration whose `y` is zero at `t_in` = 2173/5. -/
def rawY : RawCal :=
  { ac1 := 1, ac2 := 1, ac3 := -16386, ac4 := 1, ac5 := 1, ac6 := 1, vb1 := 1, vb2 := 1, mb := 1, mc := 1, md := 1 }

/-- The extreme set V-L2. -/
def rawExtreme : RawCal :=
  { ac1 := -32768, ac2 := 32767, ac3 := -32768, ac4 := 65535, ac5 := 65535, ac6 := 65535, vb1 := -32768,
    vb2 := 32767, mb := 1, mc := 32767, md := -32768 }

/-- The all-zero calibration V-L4. -/
def rawZero : RawCal :=
  { ac1 := 0, ac2 := 0, ac3 := 0, ac4 := 0, ac5 := 0, ac6 := 0, vb1 := 0, vb2 := 0, mb := 0, mc := 0, md := 0 }

/-- A state after a LOAD of `v`, both kinds Idle, with the given answers to come. -/
def loadedState (v : RawCal) (answers : List Answer) : State :=
  { State.reset with
    raw := some v
    coef := some (derive v)
    calLoaded := true
    calValid := allNonzero v
    bus := { answers := answers, trace := [] } }

/-- The state an outcome leaves, if it leaves one. -/
def nextOf : Step → Option State
  | .next t => some t
  | .fault _ => none
  | .refused _ => none

/-- The result record an outcome leaves. -/
def resultOf (o : Step) : Option Result := (nextOf o).bind State.result

/-! ## Well-formedness and decoding -/

theorem test_wellFormed_refuses_oss_above : Instr.wellFormed (.startP 2147483648) = false := by decide
theorem test_wellFormed_refuses_oss_below : Instr.wellFormed (.startP (-2147483649)) = false := by decide
theorem test_wellFormed_accepts_oss_bounds :
    Instr.wellFormed (.startP 2147483647) = true ∧ Instr.wellFormed (.startP (-2147483648)) = true := by decide

/-- R60, R61: `op` in bits 2:0, nothing else set. -/
theorem test_decode_plain_operations :
    decode (.op ⟨0b000#40, 0, 0⟩) = .ok .load ∧ decode (.op ⟨0b001#40, 0, 0⟩) = .ok .startT ∧
    decode (.op ⟨0b010#40, 0, 0⟩) = .ok .readT := by decide

/-- V-S8 and V-S10: the packed words 0xFFFFFFFF03 and 0x7FFFFFFF03. -/
theorem test_decode_startP_words :
    decode (.op ⟨0xFFFFFFFF03#40, 0, 0⟩) = .ok (.startP (-1)) ∧
    decode (.op ⟨0x7FFFFFFF03#40, 0, 0⟩) = .ok (.startP 2147483647) := by decide

/-- R60: `t_in` and `p_in` come from their own ports, and each operation ignores the other's. -/
theorem test_decode_operand_ports :
    decode (.op ⟨0b100#40, 15, 950⟩) = .ok (.readP 15) ∧
    decode (.op ⟨0b101#40, 15, 950⟩) = .ok (.classify 950) := by decide +kernel

/-- R64: the five command bytes, bit by bit. -/
theorem test_decode_command_bytes :
    decode (.ctrlByte 0b00101110#8) = .ok .cmdTemperature ∧
    decode (.ctrlByte 0b00110100#8) = .ok .cmdPressureOss0 ∧
    decode (.ctrlByte 0b01110100#8) = .ok .cmdPressureOss1 ∧
    decode (.ctrlByte 0b10110100#8) = .ok .cmdPressureOss2 ∧
    decode (.ctrlByte 0b11110100#8) = .ok .cmdPressureOss3 := by decide

/-- R62, R64: reserved codes and other bytes are rejected by name. -/
theorem test_decode_rejects :
    decode (.op ⟨6#40, 0, 0⟩) = .error (.reservedOpcode 6#3) ∧
    decode (.op ⟨7#40, 0, 0⟩) = .error (.reservedOpcode 7#3) ∧
    decode (.ctrlByte 0x35#8) = .error (.notACommandByte 0x35#8) := by decide

/-- The rows of spec/opcode_table.json through the table's own numbering, and V-S12's word. -/
theorem test_decodeTableWord_rows :
    decodeTableWord 8 4 = some (.readP 0) ∧ decodeTableWord 8 0x2E = some .cmdTemperature ∧
    decodeTableWord 8 0x34 = some .cmdPressureOss0 ∧ decodeTableWord 40 0x203 = some (.startP 2) ∧
    decodeTableWord 8 6 = none := by decide

/-- The step runs a placed word first (assumption 18). -/
theorem test_withFetchWord_runs_classify :
    resultOf (step (State.reset.withFetchWord 8 5)) = some { status := .ok, band := some .veryLow } := by
  decide +kernel

/-- The parameters of R5 agree with the tables. -/
theorem test_parameters :
    calRegisters.length = Config.nRaw ∧ (rawList sampleRaw).length = Config.nRaw ∧
    Config.nCoef = 16 ∧ 2 ^ Config.rawW = 65536 ∧ Config.opW + 5 + Config.ossW = 40 ∧
    Config.tuW = 16 ∧ Config.upW = 24 := by decide

/-! ## LOAD -/

/-- V-L1: the sample set; the coefficients are those of R120. -/
theorem test_load_sample :
    ((nextOf (exec .load { State.reset with bus := ⟨sampleBytes.map fun p => .ok [p.1, p.2], []⟩ })).map fun t =>
      (t.raw, t.coef, t.calLoaded, t.calValid)) =
    some (some sampleRaw,
      some { c3 := -71915 / 1024, c4 := 32741 / 32768000, b1 := 77375 / 524288, c5 := 32757 / 5242880, c6 := 23153,
             mc := -17422 / 25, md := 717 / 40, x0 := 408, x1 := -45 / 32, x2 := 25 / 8192, y0 := 32741 / 1000,
             y1 := -470913803 / 6710886400, y2 := 20266679 / 137438953472 }, true, true) := by
  decide +kernel

/-- V-L3 on a reload: AC4 = 0 is reported and committed, the coefficients with it. -/
theorem test_load_one_zero :
    ((nextOf (exec .load (loadedState rawY
        ((sampleBytes.set 3 (0#8, 0#8)).map fun p => .ok [p.1, p.2])))).map fun t =>
      (t.result, t.calLoaded, t.calValid, [.c4, .y0, .c3, .p0].map (readCoef t))) =
    some (some { status := .calibrationInvalid }, true, false,
      [some 0, some 0, some (-71915 / 1024), some (3783 / 1600)]) := by
  decide +kernel

/-! ## START_T, START_P and the command bytes -/

/-- V-S2: a failed write hands out 0 and leaves `seq[T]` Idle. -/
theorem test_startT_write_fails :
    ((nextOf (exec .startT (loadedState sampleRaw [.failed]))).map fun t => (t.result, t.seqT)) =
      some (some { status := .busTransportError, waitMs := some 0 }, .idle) := by
  decide +kernel

/-- V-S1: an accepted write. -/
theorem test_startT_accepted :
    ((nextOf (exec .startT (loadedState sampleRaw [.ok []]))).map fun t => (t.result, t.seqT, t.bus.trace)) =
      some (some { status := .ok, waitMs := some 5 }, .conversionPending,
        [⟨0x77#8, .write 0xF4#8 [0x2E#8], .ok []⟩]) := by
  decide +kernel

/-- V-S8: `oss` = −1 behaves as 0. -/
theorem test_startP_negative_oss :
    ((nextOf (exec (.startP (-1)) (loadedState sampleRaw [.ok []]))).map fun t => (t.result, t.bus.trace)) =
      some (some { status := .ok, waitMs := some 5 }, [⟨0x77#8, .write 0xF4#8 [0x34#8], .ok []⟩]) := by
  decide +kernel

/-- V-S13: a failed restart keeps ConversionPending. -/
theorem test_startP_failed_restart :
    ((nextOf (exec (.startP 2) { loadedState sampleRaw [.failed] with seqP := .conversionPending })).map fun t =>
      (t.result, t.seqP)) = some (some { status := .busTransportError, waitMs := some 0 }, .conversionPending) := by
  decide +kernel

theorem test_cmdTemperature : resultOf (exec .cmdTemperature (loadedState sampleRaw [.ok []])) =
    some { status := .ok, waitMs := some 5 } := by decide +kernel
theorem test_cmdPressureOss0 : resultOf (exec .cmdPressureOss0 (loadedState sampleRaw [.ok []])) =
    some { status := .ok, waitMs := some 5 } := by decide +kernel
theorem test_cmdPressureOss1 : resultOf (exec .cmdPressureOss1 (loadedState sampleRaw [.ok []])) =
    some { status := .ok, waitMs := some 8 } := by decide +kernel
theorem test_cmdPressureOss2 : resultOf (exec .cmdPressureOss2 (loadedState sampleRaw [.ok []])) =
    some { status := .ok, waitMs := some 14 } := by decide +kernel
theorem test_cmdPressureOss3 : resultOf (exec .cmdPressureOss3 (loadedState sampleRaw [.ok []])) =
    some { status := .ok, waitMs := some 26 } := by decide +kernel

/-! ## READ_T, READ_P, CLASSIFY -/

/-- V-T3. -/
theorem test_readT_sample :
    resultOf (exec .readT (loadedState sampleRaw [.ok [0x6C#8, 0xFA#8]])) =
      some { status := .ok, raw := some (.tu 27898#16), value := some (19610686360963913 / 1307629788856320) } := by
  decide +kernel

/-- V-T6: set Z at `tu` = 150. -/
theorem test_readT_zero_divisor :
    resultOf (exec .readT (loadedState rawZ [.ok [0x00#8, 0x96#8]])) = some { status := .computationError } := by
  decide +kernel

/-- V-P1. -/
theorem test_readP_sample :
    resultOf (exec (.readP 15) (loadedState sampleRaw [.ok [0x5D#8, 0x23#8, 0x00#8]])) =
      some { status := .ok, raw := some (.up24 0x5D2300#24),
             value := some (23115060856322719087734066691102143 / 33038908946456461323025995073600) } := by
  decide +kernel

/-- V-P9: set Y at `t_in` = 2173/5. -/
theorem test_readP_zero_divisor :
    resultOf (exec (.readP (2173 / 5)) (loadedState rawY [.ok [0x00#8, 0x00#8, 0x00#8]])) =
      some { status := .computationError } := by
  decide +kernel

/-- V-C10: the comparison is exact just below 950. -/
theorem test_classify_just_below_950 :
    resultOf (exec (.classify (950 - 1 / 1000000000000000000000000000000)) State.reset) =
      some { status := .ok, band := some .veryLow } := by
  decide +kernel

/-- V-C7: a boundary belongs to the upper band. -/
theorem test_classify_1051 :
    resultOf (exec (.classify 1051) State.reset) = some { status := .ok, band := some .veryHigh } := by
  decide +kernel

/-! ## Witnesses: states and operands that meet the hypotheses of the statements -/

theorem sampleRaw_inRange : RawInRange sampleRaw := by
  constructor <;> simp [inS16, inU16, sampleRaw]

theorem rawZero_inRange : RawInRange rawZero := by
  constructor <;> simp [inS16, inU16, rawZero]

/-- A loaded state with nothing pending meets the invariant. -/
theorem loadedState_consistent {v : RawCal} (h : RawInRange v) (answers : List Answer) :
    Consistent (loadedState v answers) := by
  refine ⟨rfl, rfl, rfl, ?_, ?_, .inl rfl, by simp [loadedState], ?_, by simp [loadedState, State.reset],
    by simp [loadedState]⟩
  · rintro _ ⟨⟩
    exact h
  · intro k
    cases k <;> simp [loadedState, State.reset, seqOf]
  · intro k
    cases k <;> simp [loadedState, State.reset, seqOf]

theorem witness_OperationCodeSelectsOperation :
    opField 0#40 = 0#3 ∧ opField 1#40 = 1#3 ∧ opField 2#40 = 2#3 ∧ opField 0xFFFFFFFF03#40 = 3#3 ∧
    opField 4#40 = 4#3 ∧ opField 5#40 = 5#3 ∧ opField 6#40 = 6#3 ∧ opField 0xFF#40 = 7#3 := by decide

theorem witness_EncodeThenDecodeReturnsInstruction : Instr.wellFormed (.startP (-2147483648)) = true := by decide

theorem witness_DecodeThenEncodeReturnsCanonicalForm :
    decode (.op ⟨0x8000000003#40, 0, 0⟩) = .ok (.startP (-2147483648)) ∧
    canonical (.op ⟨0x8000000003#40, 0, 0⟩) = true := by decide

theorem witness_StepRunsDecodedInstruction :
    (State.reset.withFetchWord 8 2).inputs = .present (encode .readT) :: [] ∧
    decode (encode .readT) = .ok .readT := by decide

theorem witness_RefusedOperationsHaveNoOutcome :
    (State.reset.withFetchWord 8 6).inputs = [.present (.op ⟨6#40, 0, 0⟩)] ∧ opField 6#40 = 6#3 ∧
    (State.reset.withFetchWord 8 7).inputs = [.present (.op ⟨7#40, 0, 0⟩)] ∧ opField 7#40 = 7#3 ∧
    State.reset.calLoaded = false ∧
    (loadedState rawY []).calLoaded = true ∧
    ({ loadedState rawY [] with seqP := .conversionPending } : State).seqP ≠ .idle ∧
    ({ loadedState rawY [] with seqT := .resultReady } : State).seqT ≠ .idle ∧
    ({ State.reset with inputs := [.presentDuring (encode .load)] } : State).inputs =
      .presentDuring (encode .load) :: [] ∧
    ({ State.reset with inputs := [.present (.ctrlByte 0x35#8)] } : State).inputs =
      .present (.ctrlByte 0x35#8) :: [] ∧ 0x35#8 ∉ commandBytes ∧
    State.reset.coef = none ∧ State.reset.seqP = .idle ∧ State.reset.seqT = .idle := by decide

theorem witness_ElapseMakesResultReady :
    (let s : State := { State.reset with inputs := [.elapse .P], seqP := .conversionPending }
     s.inputs = .elapse .P :: [] ∧ seqOf s .P = .conversionPending) ∧
    (let s : State := { State.reset with inputs := [.elapse .T] }
     s.inputs = .elapse .T :: [] ∧ seqOf s .T ≠ .conversionPending) := by decide

theorem witness_WaitElapsesOnlyWhenLongEnough :
    (let s : State := { State.reset with
        inputs := [.wait .T (.ms 5)], seqT := .conversionPending, startedWaitT := some 5 }
     s.inputs = .wait .T (.ms 5) :: [] ∧ startedWait s .T = some 5 ∧ seqOf (runWait .T (.ms 5) s) .T = .resultReady ∧
     seqOf (runWait .T (.ms 4) s) .T = .conversionPending) ∧
    (let s : State := { State.reset with
        inputs := [.wait .P .returned], seqP := .conversionPending, startedWaitP := some 26
        result := some { status := .ok, waitMs := some 26 } }
     s.inputs = .wait .P .returned :: [] ∧ 26 = (s.result.bind Result.waitMs).getD 0 ∧
     startedWait s .P = some 26) ∧
    (let s : State := { State.reset with inputs := [.wait .T .returned] }
     s.inputs = .wait .T .returned :: [] ∧ 0 = (s.result.bind Result.waitMs).getD 0 ∧
     startedWait s .T = none) := by decide

theorem witness_ResetInputRestoresResetValues :
    ({ loadedState rawY [] with inputs := [.reset] } : State).inputs = .reset :: [] := rfl

theorem witness_ReadSigned16DecodesTwoBytes :
    readAnswer 0xBA#8 2 ⟨[.ok [0x80#8, 0x00#8]], []⟩ = some #v[0x80#8, 0x00#8] ∧
    (rdI16 0xBA#8 ⟨[.ok [0x80#8, 0x00#8]], []⟩).1 = some (-32768) ∧
    (rdI16 0xBE#8 ⟨[.ok [0x7F#8, 0xFF#8]], []⟩).1 = some 32767 ∧
    readAnswer 0xBA#8 2 ⟨[.failed], []⟩ = none := by decide

theorem witness_ReadUnsignedGivesBytes :
    readAnswer 0xB2#8 2 ⟨[.ok [0xFF#8, 0xFF#8]], []⟩ = some #v[0xFF#8, 0xFF#8] ∧
    readAnswer 0xF6#8 3 ⟨[.ok [0x5D#8, 0x23#8, 0x80#8]], []⟩ = some #v[0x5D#8, 0x23#8, 0x80#8] ∧
    readAnswer 0xB2#8 2 ⟨[.failed], []⟩ = none ∧ readAnswer 0xF6#8 3 ⟨[.failed], []⟩ = none := by decide

theorem witness_FailedReadGivesNoValue :
    readAnswer 0xB4#8 2 ⟨[.failed], []⟩ = none ∧ readAnswer 0xF6#8 3 ⟨[.failed], []⟩ = none := by decide

/-- The boundary of every range column (V-L2). -/
theorem witness_CoefficientsFollowTheFormulas : RawInRange rawExtreme := by
  constructor <;> simp [inS16, inU16, rawExtreme]

theorem witness_LoadCommitsWhatTheBusReturned :
    sampleBytes.length = 11 ∧
    ({ State.reset with bus := ⟨sampleBytes.map fun p => .ok [p.1, p.2], []⟩ } : State).bus.answers =
      sampleBytes.map (fun p => .ok [p.1, p.2]) ++ [] := by decide

/-- The first read fails, and the last one does. -/
theorem witness_LoadStopsAtFirstFailedRead :
    ([] : List (Byte × Byte)).length < 11 ∧ (sampleBytes.take 10).length < 11 ∧
    ({ State.reset with bus := ⟨(sampleBytes.take 10).map (fun p => .ok [p.1, p.2]) ++ [.failed], []⟩ } :
      State).bus.answers = (sampleBytes.take 10).map (fun p => .ok [p.1, p.2]) ++ .failed :: [] := by decide

theorem witness_LoadCompletesInEveryState :
    (readCalibration ⟨[.failed], []⟩).1 = none ∧
    (readCalibration ⟨sampleBytes.map fun p => .ok [p.1, p.2], []⟩).1 = some sampleRaw ∧
    (∀ x ∈ rawList sampleRaw, x ≠ 0) ∧
    (readCalibration ⟨(List.replicate 11 (.ok [0#8, 0#8])), []⟩).1 = some rawZero ∧
    (∃ x ∈ rawList rawZero, x = 0) := by decide

/-- START_T and the temperature command: accepted and failed. -/
theorem witness_StartTemperatureWritesCommand :
    (loadedState rawY [.ok []]).calLoaded = true ∧ (loadedState rawY [.ok []]).seqP = .idle ∧
    writeAnswer 0xF4#8 [0x2E#8] (loadedState rawY [.ok []]).bus = true ∧
    writeAnswer 0xF4#8 [0x2E#8] (loadedState rawY [.failed]).bus = false := by decide

/-- START_P: the four commands at the edges of the table. -/
theorem witness_StartPressureSelectsCommandAndWait :
    (loadedState rawY [.ok []]).calLoaded = true ∧ (loadedState rawY [.ok []]).seqT = .idle ∧
    (∀ p ∈ ([(0, 0x34#8, 5), (1, 0x74#8, 8), (2, 0xB4#8, 14), (3, 0xF4#8, 26), (4, 0x34#8, 5), (-1, 0x34#8, 5)] :
        List (Int × Byte × Nat)),
      p.2 = (if p.1 = 1 then (0x74#8, 8) else if p.1 = 2 then (0xB4#8, 14)
        else if p.1 = 3 then (0xF4#8, 26) else (0x34#8, 5))) ∧
    writeAnswer 0xF4#8 [0xF4#8] (loadedState rawY [.ok []]).bus = true ∧
    writeAnswer 0xF4#8 [0xF4#8] (loadedState rawY [.failed]).bus = false := by decide

theorem witness_TemperatureCommandStartsConversion :
    (loadedState rawY [.failed]).calLoaded = true ∧ (loadedState rawY [.failed]).seqP = .idle ∧
    writeAnswer 0xF4#8 [0x2E#8] (loadedState rawY [.ok []]).bus = true ∧
    writeAnswer 0xF4#8 [0x2E#8] (loadedState rawY [.failed]).bus = false := by decide

theorem witness_PressureCommandsStartConversion :
    (loadedState rawY []).calLoaded = true ∧ (loadedState rawY []).seqT = .idle ∧
    ((.cmdPressureOss3, 0xF4#8, 26) : Instr × Byte × Nat) ∈
      [(.cmdPressureOss0, 0x34#8, 5), (.cmdPressureOss1, 0x74#8, 8), (.cmdPressureOss2, 0xB4#8, 14),
       (.cmdPressureOss3, 0xF4#8, 26)] ∧
    writeAnswer 0xF4#8 [0xF4#8] (loadedState rawY [.ok []]).bus = true ∧
    writeAnswer 0xF4#8 [0xF4#8] (loadedState rawY [.failed]).bus = false := by decide

theorem witness_CommandBytesAreRefusedLikeStart :
    Instr.cmdPressureOss0 ∈
      [Instr.cmdPressureOss0, .cmdPressureOss1, .cmdPressureOss2, .cmdPressureOss3] ∧
    State.reset.calLoaded = false ∧ (loadedState rawY []).calLoaded = true ∧
    ({ loadedState rawY [] with seqP := .resultReady } : State).seqP ≠ .idle ∧
    ({ loadedState rawY [] with seqT := .conversionPending } : State).seqT ≠ .idle := by decide

/-- READ_T: a failed read (V-T9), a zero divisor (V-T6) and the smallest step off it (V-T7). -/
theorem witness_ReadTemperatureFollowsTheFormula :
    (loadedState rawZ []).calLoaded = true ∧ (loadedState rawZ []).seqP = .idle ∧
    (loadedState rawZ []).coef = some (derive rawZ) ∧
    readAnswer 0xF6#8 2 (loadedState rawZ [.failed]).bus = none ∧
    readAnswer 0xF6#8 2 (loadedState rawZ [.ok [0x00#8, 0x96#8]]).bus = some #v[0x00#8, 0x96#8] ∧
    (derive rawZ).c5 * ((150 : Nat) - (derive rawZ).c6) + (derive rawZ).md = 0 ∧
    (derive rawZ).c5 * ((151 : Nat) - (derive rawZ).c6) + (derive rawZ).md ≠ 0 := by decide +kernel

/-- READ_P: a failed read (V-P12), `y = 0` (V-P9) and `y ≠ 0` (V-P11). -/
theorem witness_ReadPressureFollowsTheFormula :
    (loadedState rawY []).calLoaded = true ∧ (loadedState rawY []).seqT = .idle ∧
    (loadedState rawY []).coef = some (derive rawY) ∧
    readAnswer 0xF6#8 3 (loadedState rawY [.failed]).bus = none ∧
    readAnswer 0xF6#8 3 (loadedState rawY [.ok [0x00#8, 0x64#8, 0x00#8]]).bus = some #v[0x00#8, 0x64#8, 0x00#8] ∧
    pressY (derive rawY) (pressS (2173 / 5)) = 0 ∧ pressY (derive rawY) (pressS 25) ≠ 0 := by decide +kernel

theorem witness_TemperatureClosedForm :
    (12800000 : Int) = sampleRaw.ac5 * ((23153 : Nat) - sampleRaw.ac6) + 12800000 ∧
    sampleRaw.ac5 * ((23153 : Nat) - sampleRaw.ac6) + 32768 * sampleRaw.md ≠ 0 ∧
    rawZ.ac5 * ((150 : Nat) - rawZ.ac6) + 32768 * rawZ.md = 0 := by decide

/-- The all-zero calibration meets both clauses. -/
theorem witness_ZeroCalibrationForcesComputationError :
    (∃ s, Consistent s ∧ s.raw = some rawZero ∧ s.seqT = .idle ∧ s.seqP = .idle ∧
      readAnswer 0xF6#8 3 s.bus = some #v[0x5D#8, 0x23#8, 0x00#8]) ∧
    (∃ s, Consistent s ∧ s.raw = some rawZero ∧ s.seqP = .idle ∧
      readAnswer 0xF6#8 2 s.bus = some #v[0x04#8, 0xD2#8]) ∧
    rawZero.ac4 = 0 ∧ rawZero.ac5 = 0 ∧ rawZero.md = 0 :=
  ⟨⟨_, loadedState_consistent rawZero_inRange [.ok [0x5D#8, 0x23#8, 0x00#8]], rfl, rfl, rfl, rfl⟩,
   ⟨_, loadedState_consistent rawZero_inRange [.ok [0x04#8, 0xD2#8]], rfl, rfl, rfl⟩, rfl, rfl, rfl⟩

/-- An operation that answers, for the statements about `exec i s = next t`. -/
theorem witness_exec_answers :
    (∃ t, exec .readT (loadedState sampleRaw [.ok [0x6C#8, 0xFA#8]]) = .next t) ∧
    (∃ t, exec (.startP 3) (loadedState sampleRaw [.failed]) = .next t) ∧
    (∃ t, exec .load State.reset = .next t) ∧ (∃ t, exec (.classify 0) State.reset = .next t) :=
  ⟨⟨_, rfl⟩, ⟨_, rfl⟩, ⟨_, rfl⟩, ⟨_, rfl⟩⟩

theorem witness_OnlyTheHostsWaitMakesResultReady :
    (let s : State := { State.reset with inputs := [.elapse .T], seqT := .conversionPending }
     (∃ t, step s = .next t ∧ seqOf s .T ≠ .resultReady ∧ seqOf t .T = .resultReady)) :=
  ⟨_, rfl, by decide, rfl⟩

/-- A step that is neither a reset nor a LOAD. -/
theorem witness_OnlyLoadChangesCalibration :
    (∃ t, step (State.reset.withFetchWord 8 5) = .next t) ∧
    (∀ rest, (State.reset.withFetchWord 8 5).inputs ≠ .reset :: rest) ∧
    (∀ e rest, (State.reset.withFetchWord 8 5).inputs = .present e :: rest → decode e ≠ .ok .load) := by
  refine ⟨⟨_, rfl⟩, fun rest h => ?_, fun e rest h => ?_⟩
  · exact HostInput.noConfusion (List.cons.inj h).1
  · obtain ⟨h, -⟩ := List.cons.inj h
    cases h
    decide

theorem witness_ValidityFlagInfluencesNoOperation :
    Instr.startT ≠ .load ∧ exec .startT State.reset = .refused .calibrationNotLoaded ∧
    (∃ t, exec .startT (loadedState rawY [.ok []]) = .next t) ∧
    (∃ t, exec .load (loadedState rawY [.failed]) = .next t) ∧
    (readCalibration (loadedState rawY [.failed]).bus).1 = none ∧
    (readCalibration ⟨sampleBytes.map fun p => .ok [p.1, p.2], []⟩).1 ≠ none :=
  ⟨by decide, rfl, ⟨_, rfl⟩, ⟨_, rfl⟩, by decide, by decide⟩

theorem witness_StepKeepsInvariant :
    ∃ s t, Consistent s ∧ step s = .next t :=
  ⟨_, _, loadedState_consistent sampleRaw_inRange [], rfl⟩

theorem witness_RunsFromResetKeepInvariant :
    ∃ t, core.run 1 { State.reset with inputs := [.present (encode .load)], bus := ⟨[], []⟩ } = .next t := ⟨_, rfl⟩

/-- A START and a READ that R181 does not refuse, in a state that meets the invariant. -/
theorem witness_UnrefusedOperationsComplete :
    ∃ s, Consistent s ∧ s.calLoaded = true ∧ seqOf s .P = .idle ∧ seqOf s .T = .idle ∧
      startsKind .startT = some .T ∧ readsKind .readT = some .T :=
  ⟨_, loadedState_consistent sampleRaw_inRange [], rfl, rfl, rfl, rfl, rfl⟩

/-- MEASURE_T with the write accepted and failed, and MEASURE_P at the edge of its operand. -/
theorem witness_MeasureRunsStartWaitRead :
    (let s : State := { loadedState sampleRaw [.ok []] with inputs := measureT }
     s.inputs = measureT ++ [] ∧ s.calLoaded = true ∧ s.seqP = .idle ∧ writeAnswer 0xF4#8 [0x2E#8] s.bus = true) ∧
    (let s : State := { loadedState sampleRaw [.failed] with inputs := measureP 2147483647 15 }
     s.inputs = measureP 2147483647 15 ++ [] ∧ Instr.wellFormed (.startP 2147483647) = true ∧
     s.calLoaded = true ∧ s.seqT = .idle ∧ writeAnswer 0xF4#8 [0x34#8] s.bus = false ∧ Consistent s) ∧
    (let s : State := { loadedState sampleRaw [.failed] with inputs := measureT }
     s.calLoaded = true ∧ s.seqP = .idle ∧ writeAnswer 0xF4#8 [0x2E#8] s.bus = false ∧ Consistent s) :=
  ⟨⟨rfl, rfl, rfl, rfl⟩,
   ⟨rfl, rfl, rfl, rfl, rfl, (loadedState_consistent sampleRaw_inRange [.failed]).withInputs _⟩,
   ⟨rfl, rfl, rfl, (loadedState_consistent sampleRaw_inRange [.failed]).withInputs _⟩⟩

/-- Each error status is returned by some operation. -/
theorem witness_ResultCodesFollowTheTables :
    (resultOf (exec .startT (loadedState sampleRaw [.failed]))).map (fun r => statusCode r.status) = some 1#2 ∧
    (resultOf (exec .load (loadedState rawY (List.replicate 11 (.ok [0#8, 0#8]))))).map
      (fun r => statusCode r.status) = some 2#2 ∧
    (resultOf (exec .readT (loadedState rawZ [.ok [0x00#8, 0x96#8]]))).map (fun r => statusCode r.status) =
      some 3#2 := by
  decide +kernel

end Sys2Proof.Machine
end

/-! # Proofs of the scope statements (spec/00_scope.md): the step on a presented form, and the refusals of R181 -/

namespace Sys2Proof.Machine

/-! ## A step on a presented form -/

/-- A presented form that decodes runs its instruction on the state without the input (R8, R204). -/
theorem step_present_ok {s : State} {e : Encoded} {i : Instr} {rest : List HostInput}
    (hs : s.inputs = .present e :: rest) (hd : decode e = .ok i) :
    step s = exec i { s with inputs := rest } := by
  rw [step_input hs]
  simp only [runInput, runPresented, hd]

/-- A presented form that selects no instruction is refused under the decoder's reason (R62, R64). -/
theorem step_present_error {s : State} {e : Encoded} {d : DecodeError} {rest : List HostInput}
    (hs : s.inputs = .present e :: rest) (hd : decode e = .error d) :
    step s = .refused (decodeRefusal d) := by
  rw [step_input hs]
  simp only [runInput, runPresented, hd]

/-- An operation presented while one executes is refused (R181 d, R182). -/
theorem step_presentDuring {s : State} {e : Encoded} {rest : List HostInput}
    (hs : s.inputs = .presentDuring e :: rest) : step s = .refused .operationInProgress := by
  rw [step_input hs]
  rfl

/-! ## Forms that select no instruction -/

/-- The codes 6 and 7 select no operation (R62). -/
theorem decode_op_reserved {r : OpRecord} (h : opField r.word = 6#3 ∨ opField r.word = 7#3) :
    decode (.op r) = .error (.reservedOpcode (opField r.word)) := by
  rcases h with h | h <;> simp [decode, decodeRecord, h]

/-- A byte that is none of the five command bytes selects no instruction (R64). -/
theorem decode_ctrlByte_notCommand {b : Byte} (h : b ∉ commandBytes) :
    decode (.ctrlByte b) = .error (.notACommandByte b) := by
  change decodeCommandByte b = _
  unfold decodeCommandByte
  split
  case h_6 => rfl
  all_goals exact absurd (by decide) h

/-! ## The refusals of a sequencer operation -/

/-- Every operation that starts or reads a conversion of kind `k` runs under the refusals of R181 (b) and (c) for
that kind. -/
theorem exec_eq_unlessRefused {i : Instr} {k : Kind} (s : State)
    (h : startsKind i = some k ∨ readsKind i = some k) : ∃ run, exec i s = unlessRefused k s run := by
  cases i with
  | load | classify => simp [startsKind, readsKind] at h
  | startT | startP | readT | readP | cmdTemperature | cmdPressureOss0 | cmdPressureOss1 | cmdPressureOss2
  | cmdPressureOss3 =>
    simp only [startsKind, readsKind, reduceCtorEq, Option.some.injEq, or_false, false_or] at h
    subst h
    exact ⟨_, rfl⟩

/-- A sequencer operation before LOAD is refused, whichever kind it starts or reads (R152, R181 b). -/
theorem exec_refused_notLoaded {i : Instr} {k : Kind} {s : State}
    (h : startsKind i = some k ∨ readsKind i = some k) (hl : s.calLoaded = false) :
    exec i s = .refused .calibrationNotLoaded := by
  obtain ⟨run, e⟩ := exec_eq_unlessRefused s h
  rw [e, unlessRefused_notLoaded run hl]

/-- A sequencer operation of kind `k` is refused while the other kind is not Idle (R151, R181 c). -/
theorem exec_refused_otherBusy {i : Instr} {k : Kind} {s : State}
    (h : startsKind i = some k ∨ readsKind i = some k) (hl : s.calLoaded = true)
    (ho : seqOf s (otherKind k) ≠ .idle) : exec i s = .refused (.otherKindNotIdle (otherKind k)) := by
  obtain ⟨run, e⟩ := exec_eq_unlessRefused s h
  rw [e, unlessRefused_otherBusy run hl ho]

/-- A READ of kind `k` while `COEF` holds no value is refused under the name of R181 (b), whatever `cal_loaded` says:
it has nothing to compute with (R7, R28). -/
theorem unlessRefused_withCoefs_noValue {k : Kind} {s : State} (run : Coefs → Step) (hc : s.coef = none)
    (ho : seqOf s (otherKind k) = .idle) :
    unlessRefused k s (withCoefs s run) = .refused .calibrationNotLoaded := by
  cases hl : s.calLoaded with
  | false => exact unlessRefused_notLoaded _ hl
  | true => rw [unlessRefused_runs _ hl ho, withCoefs_noValue run hc]

/-! ## The statements -/

/-- Settles O7: the step takes the oldest input and runs what it decodes to. -/
theorem stepRunsDecodedInstruction : Obligations.StepRunsDecodedInstruction :=
  fun _ _ _ _ hs hd => step_present_ok hs hd

/-- Settles O8: forms that decode to nothing are refused by the step, sequencer operations by `unlessRefused`, and a
READ without coefficients by `withCoefs`. -/
theorem refusedOperationsHaveNoOutcome : Obligations.RefusedOperationsHaveNoOutcome := by
  refine ⟨?reservedCode, ?notLoaded, ?pressureBusy, ?temperatureBusy, ?overlapping, ?noCommandByte, ?noValue⟩
  case reservedCode =>
    intro s r rest hs
    constructor <;> intro h
    · rw [step_present_error hs (decode_op_reserved (.inl h)), h]; rfl
    · rw [step_present_error hs (decode_op_reserved (.inr h)), h]; rfl
  case notLoaded =>
    exact fun s oss t hl =>
      ⟨exec_refused_notLoaded (.inl rfl) hl, exec_refused_notLoaded (.inr rfl) hl,
        exec_refused_notLoaded (.inl rfl) hl, exec_refused_notLoaded (.inr rfl) hl⟩
  case pressureBusy =>
    exact fun s hl hp =>
      ⟨exec_refused_otherBusy (k := .T) (.inl rfl) hl hp, exec_refused_otherBusy (k := .T) (.inr rfl) hl hp⟩
  case temperatureBusy =>
    exact fun s oss t hl ht =>
      ⟨exec_refused_otherBusy (k := .P) (.inl rfl) hl ht, exec_refused_otherBusy (k := .P) (.inr rfl) hl ht⟩
  case overlapping => exact fun s e rest hs => step_presentDuring hs
  case noCommandByte =>
    exact fun s b rest hs hb => step_present_error hs (decode_ctrlByte_notCommand hb)
  case noValue =>
    exact fun s t hc =>
      ⟨fun hp => unlessRefused_withCoefs_noValue _ hc hp, fun ht => unlessRefused_withCoefs_noValue _ hc ht⟩

end Sys2Proof.Machine

/-! # Proofs of the state statements (spec/10_state.md): the invariant, the frame of the calibration, the validity flag,
the status view and the hardwired constants -/

namespace Sys2Proof.Machine

/-! ## What a step can do -/

/-- What a step that answered can have done with the host's oldest input. -/
inductive StepCase (s t : State) : Prop
  /-- No input was pending (R31). -/
  | idle : t = s → StepCase s t
  /-- A presented form ran the instruction it decodes to (R8). -/
  | operation (e : Encoded) (i : Instr) (rest : List HostInput) : s.inputs = .present e :: rest →
      decode e = .ok i → exec i { s with inputs := rest } = .next t → StepCase s t
  /-- `elapse(k)`, or a WAIT that was long enough, while a conversion was pending (R148, R72). -/
  | elapsed (k : Kind) (rest : List HostInput) : seqOf s k = .conversionPending →
      t = setSeq k .resultReady { s with inputs := rest } → StepCase s t
  /-- A WAIT in which only time passed (R72). -/
  | waited (rest : List HostInput) : t = { s with inputs := rest } → StepCase s t
  /-- A reset (R190). -/
  | reset (rest : List HostInput) : s.inputs = .reset :: rest → t = applyReset { s with inputs := rest } →
      StepCase s t

/-- Taking an input off the host's list leaves both protocol states. -/
@[simp] theorem seqOf_withInputs (s : State) (inputs : List HostInput) (k : Kind) :
    seqOf { s with inputs := inputs } k = seqOf s k := by cases k <;> rfl

/-- `elapse(k)` answers only while the conversion is pending (R148). -/
theorem runElapse_next {k : Kind} {s t : State} (h : runElapse k s = .next t) :
    seqOf s k = .conversionPending ∧ t = setSeq k .resultReady s := by
  unfold runElapse at h
  split at h
  · next hp => exact ⟨hp, (Host.Outcome.next.inj h).symm⟩
  · cases h

/-- A WAIT is `elapse(k)` while the conversion is pending, or changes nothing (R72). -/
theorem runWait_cases (k : Kind) (d : WaitLength) (s : State) :
    (seqOf s k = .conversionPending ∧ runWait k d s = setSeq k .resultReady s) ∨ runWait k d s = s := by
  by_cases h : ∃ w, seqOf s k = .conversionPending ∧ startedWait s k = some w ∧ w ≤ waitedMs d s
  · obtain ⟨w, hp, hw, hle⟩ := h
    exact .inl ⟨hp, runWait_elapses hp hw hle⟩
  · exact .inr (runWait_keeps h)

/-- A presented form answers only where it decodes, and then as `exec` does (R62). -/
theorem runPresented_next {e : Encoded} {s t : State} (h : runPresented e s = .next t) :
    ∃ i, decode e = .ok i ∧ exec i s = .next t := by
  unfold runPresented at h
  split at h
  · next i hd => exact ⟨i, hd, h⟩
  · cases h

/-- The inversion law of `step`. -/
theorem step_cases {s t : State} (h : step s = .next t) : StepCase s t := by
  cases hs : s.inputs with
  | nil =>
    rw [step_idle hs] at h
    exact .idle (Host.Outcome.next.inj h).symm
  | cons input rest =>
    rw [step_input hs] at h
    cases input with
    | present e =>
      obtain ⟨i, hd, hi⟩ := runPresented_next h
      exact .operation e i rest hs hd hi
    | elapse k =>
      obtain ⟨hp, ht⟩ := runElapse_next h
      exact .elapsed k rest (by simpa using hp) ht
    | wait k d =>
      have ht := (Host.Outcome.next.inj h).symm
      rcases runWait_cases k d { s with inputs := rest } with ⟨hp, e⟩ | e
      · exact .elapsed k rest (by simpa using hp) (ht.trans e)
      · exact .waited rest (ht.trans e)
    | reset => exact .reset rest hs (Host.Outcome.next.inj h).symm
    | presentDuring e => cases h

/-! ## Updates that keep the invariant -/

/-- The invariant holds after reset (R31). -/
theorem consistent_reset : Consistent State.reset where
  loaded := rfl
  derived := rfl
  valid := rfl
  range := by simp [State.reset]
  settled k := by cases k <;> simp [State.reset]
  oneKind := .inl rfl
  started _ := ⟨rfl, rfl⟩
  wait k := by cases k <;> simp [State.reset]
  result := by simp [State.reset]
  trace := by simp [State.reset]

/-- An operation may end with any record of R67. -/
theorem Consistent.withResult {s : State} (h : Consistent s) {r : Result} (hr : ResultLegal r) :
    Consistent { s with result := some r } :=
  { h with
    settled := fun | .T => h.settled .T | .P => h.settled .P
    wait := fun | .T => h.wait .T | .P => h.wait .P
    result := fun _ e => Option.some.inj e ▸ hr }

/-- The bus may have any history of legal transactions. -/
theorem Consistent.withBus {s : State} (h : Consistent s) {bus : Bus}
    (hb : ∀ x ∈ bus.trace, TransactionLegal x) : Consistent { s with bus := bus } :=
  { h with
    settled := fun | .T => h.settled .T | .P => h.settled .P
    wait := fun | .T => h.wait .T | .P => h.wait .P
    trace := hb }

/-- A commit of registers in their ranges, with everything that is derived from them (R33). -/
theorem Consistent.withCalibration {s : State} (h : Consistent s) {v : RawCal} (hv : RawInRange v) :
    Consistent { s with raw := some v, coef := some (derive v), calLoaded := true, calValid := allNonzero v } :=
  { h with
    loaded := rfl
    derived := rfl
    valid := rfl
    range := fun _ e => Option.some.inj e ▸ hv
    settled := fun | .T => h.settled .T | .P => h.settled .P
    started := fun e => absurd e (by simp)
    wait := fun | .T => h.wait .T | .P => h.wait .P }

/-- The host may be handed any wait of R65. -/
theorem Consistent.setStartedWait {s : State} (h : Consistent s) {k : Kind} {w : Nat} (hw : legalWait k w) :
    Consistent (setStartedWait k w s) := by
  cases k with
  | T =>
    exact { h with
      settled := fun | .T => h.settled .T | .P => h.settled .P
      wait := fun | .T => fun _ => ⟨w, rfl, hw⟩ | .P => h.wait .P }
  | P =>
    exact { h with
      settled := fun | .T => h.settled .T | .P => h.settled .P
      wait := fun | .T => h.wait .T | .P => fun _ => ⟨w, rfl, hw⟩ }

/-- A kind may always become Idle (R149). -/
theorem Consistent.setSeq_idle {s : State} (h : Consistent s) (k : Kind) : Consistent (setSeq k .idle s) := by
  cases k with
  | T =>
    exact { h with
      settled := fun | .T => by simp | .P => h.settled .P
      oneKind := .inl rfl
      started := fun e => ⟨rfl, (h.started e).2⟩
      wait := fun | .T => by simp | .P => h.wait .P }
  | P =>
    exact { h with
      settled := fun | .T => h.settled .T | .P => by simp
      oneKind := .inr rfl
      started := fun e => ⟨(h.started e).1, rfl⟩
      wait := fun | .T => h.wait .T | .P => by simp }

/-- A kind may become ConversionPending or ResultReady in a loaded block while the other kind is Idle (R151, R152),
if the host knows its wait (R148). -/
theorem Consistent.setSeq_busy {s : State} (h : Consistent s) {k : Kind} {v : SeqState}
    (hl : s.calLoaded = true) (ho : seqOf s (otherKind k) = .idle) (hv : v ≠ .awaitingStart)
    (hw : v = .conversionPending → ∃ w, startedWait s k = some w ∧ legalWait k w) :
    Consistent (setSeq k v s) := by
  have loaded {p : Prop} (e : s.calLoaded = false) : p := by simp [hl] at e
  cases k with
  | T =>
    exact { h with
      settled := fun | .T => hv | .P => h.settled .P
      oneKind := .inr ho
      started := loaded
      wait := fun | .T => hw | .P => h.wait .P }
  | P =>
    exact { h with
      settled := fun | .T => h.settled .T | .P => hv
      oneKind := .inl ho
      started := loaded
      wait := fun | .T => h.wait .T | .P => hw }

/-- While a kind is not Idle the block is loaded and the other kind is Idle (R198, R192). -/
theorem Consistent.of_busy {s : State} (h : Consistent s) {k : Kind} (hk : seqOf s k ≠ .idle) :
    s.calLoaded = true ∧ seqOf s (otherKind k) = .idle := by
  constructor
  · by_contra hl
    obtain ⟨ht, hp⟩ := h.started (by simpa using hl)
    cases k <;> contradiction
  · cases k with
    | T => exact h.oneKind.resolve_left hk
    | P => exact h.oneKind.resolve_right hk

/-! ## The bus history stays legal -/

/-- A sequence of reads with legal requests leaves a legal history. -/
theorem Reads.trace_legal {α : Type} {f : Bus → Option α × Bus} {reqs : List Request} {good : α → Prop}
    (hf : Reads f reqs good) (hq : ∀ q ∈ reqs, requestLegal q) {b : Bus}
    (hb : ∀ x ∈ b.trace, TransactionLegal x) : ∀ x ∈ (f b).2.trace, TransactionLegal x := by
  obtain ⟨l, ht, hpre, -, hok, -⟩ := hf b
  intro x hx
  rw [ht, List.mem_append] at hx
  rcases hx with hx | hx
  · exact hb x hx
  · obtain ⟨hdev, hwhole⟩ := hok x hx
    exact ⟨hdev, hq _ (hpre.subset (List.mem_map_of_mem hx)), hwhole⟩

/-- A legal write, whatever its verdict, leaves a legal history. -/
theorem busRecord_write_trace_legal {addr : Addr} {bytes : List Byte} {answer : Answer} {b : Bus}
    (hq : requestLegal (.write addr bytes)) (hb : ∀ x ∈ b.trace, TransactionLegal x) :
    ∀ x ∈ (busRecord (.write addr bytes) answer b).trace, TransactionLegal x := by
  intro x hx
  rw [busRecord_trace, List.mem_append, List.mem_singleton] at hx
  rcases hx with hx | rfl
  · exact hb x hx
  · exact ⟨rfl, hq, fun _ _ _ e => by cases e⟩

/-! ## Every step keeps the invariant -/

/-- The protocol state and the remembered wait are updated independently. -/
theorem setStartedWait_setSeq (k : Kind) (w : Nat) (v : SeqState) (s : State) :
    setStartedWait k w (setSeq k v s) = setSeq k v (setStartedWait k w s) := by
  cases k <;> rfl

/-- The start procedure with a legal command and wait keeps the invariant, accepted or failed (R131). -/
theorem Consistent.startConversion {s : State} (h : Consistent s) {k : Kind} {cmd : Byte} {w : Nat}
    (hq : requestLegal (.write 0xF4#8 [cmd])) (hw : legalWait k w) (hl : s.calLoaded = true)
    (ho : seqOf s (otherKind k) = .idle) : Consistent (startConversion k cmd w s) := by
  have written (a : Answer) : Consistent { s with bus := busRecord (.write controlAddr [cmd]) a s.bus } :=
    h.withBus (busRecord_write_trace_legal hq h.trace)
  have started : ResultLegal { status := .ok, waitMs := some w } := by
    refine .started w ?_
    cases k with
    | T => simp [show w = 5 from hw]
    | P => exact hw
  rcases startConversion_cases k cmd w s with e | e <;> rw [e]
  · rw [setStartedWait_setSeq]
    refine (((written (.ok [])).setStartedWait hw).setSeq_busy (by simpa using hl) ?_ (by simp)
      fun _ => ⟨w, by simp, hw⟩).withResult started
    cases k <;> exact ho
  · exact (written .failed).withResult .notStarted

/-- A record that READ_k ends with is one of R67's, where its readings are (R133, R140). -/
theorem resultLegal_read {α : Type} {count : α → RawCount} {r : Result}
    (hok : ∀ n v, ResultLegal { status := .ok, raw := some (count n), value := some v })
    (h : r = { status := .busTransportError } ∨ r = { status := .computationError } ∨
      ∃ n v, r = { status := .ok, raw := some (count n), value := some v }) : ResultLegal r := by
  rcases h with rfl | rfl | ⟨n, v, rfl⟩
  · exact .load _ (by simp)
  · exact .zeroDivisor
  · exact hok n v

/-- Every operation that answers keeps the invariant. -/
theorem Consistent.exec {i : Instr} {s t : State} (h : Consistent s) (he : exec i s = .next t) : Consistent t := by
  have calibrationRead : Consistent { s with bus := (readCalibration s.bus).2 } :=
    h.withBus (reads_readCalibration.trace_legal (fun _ hq => busRequests_legal (i := .load) hq) h.trace)
  have resultRead (n : Nat) (hq : requestLegal (.read 0xF6#8 n)) :
      Consistent { s with bus := (memRead 0xF6#8 n s.bus).2 } :=
    h.withBus ((reads_memRead _ n).trace_legal (by simpa using hq) h.trace)
  rcases exec_cases he with ⟨-, -, rfl⟩ | ⟨v, -, hv, rfl⟩ | ⟨k, cmd, w, -, hr, -, hw, hl, ho, rfl⟩ |
    ⟨r, -, -, hr, rfl⟩ | ⟨tIn, r, -, -, hr, rfl⟩ | ⟨p, -, rfl⟩
  case loadFailed => exact calibrationRead.withResult (.load _ (by simp))
  case loaded =>
    obtain ⟨-, -, -, -, -, hrange⟩ := reads_readCalibration s.bus
    refine (calibrationRead.withCalibration (hrange v hv)).withResult (.load _ ?_)
    unfold validityStatus
    split <;> simp
  case start => exact h.startConversion (busRequests_legal (i := i) (by simp [hr])) hw hl ho
  case readT =>
    exact ((resultRead 2 (.inl ⟨rfl, .inr rfl⟩)).setSeq_idle .T).withResult (resultLegal_read .readingT hr)
  case readP =>
    exact ((resultRead 3 (.inr ⟨rfl, rfl⟩)).setSeq_idle .P).withResult (resultLegal_read .readingP hr)
  case classify => exact h.withResult (.band _)

/-- A reset keeps the invariant: the block is as after power-up, and the bus history stays (R190, R191). -/
theorem Consistent.applyReset {s : State} (h : Consistent s) : Consistent (applyReset s) :=
  (consistent_reset.withBus h.trace).withInputs s.inputs

/-- Every step keeps the invariant. -/
theorem Consistent.step {s t : State} (h : Consistent s) (hs : step s = .next t) : Consistent t := by
  cases step_cases hs with
  | idle ht => exact ht ▸ h
  | operation e i rest _ _ he => exact (h.withInputs rest).exec he
  | elapsed k rest hp ht =>
    obtain ⟨hl, ho⟩ := h.of_busy (k := k) (by simp [hp])
    exact ht ▸ (h.withInputs rest).setSeq_busy hl (by simpa using ho) (by simp) (by simp)
  | waited rest ht => exact ht ▸ h.withInputs rest
  | reset rest _ ht => exact ht ▸ (h.withInputs rest).applyReset

/-! ## Only LOAD and reset change the calibration -/

/-- The calibration registers and their flags are the same in both states (R20, R22, R24, R25). -/
def SameCalibration (s t : State) : Prop :=
  t.raw = s.raw ∧ t.coef = s.coef ∧ t.calLoaded = s.calLoaded ∧ t.calValid = s.calValid

/-- The start procedure keeps the calibration. -/
theorem startConversion_sameCalibration (k : Kind) (cmd : Byte) (w : Nat) (s : State) :
    SameCalibration s (startConversion k cmd w s) := by
  rcases startConversion_cases k cmd w s with e | e <;> simp [SameCalibration, e]

/-- Every operation but LOAD keeps the calibration (R21). -/
theorem exec_sameCalibration {i : Instr} {s t : State} (hi : i ≠ .load) (h : exec i s = .next t) :
    SameCalibration s t := by
  rcases exec_cases h with ⟨e, -, -⟩ | ⟨v, e, -, -⟩ | ⟨k, cmd, w, -, -, -, -, -, -, rfl⟩ |
    ⟨r, -, -, -, rfl⟩ | ⟨tIn, r, -, -, -, rfl⟩ | ⟨p, -, rfl⟩
  case loadFailed | loaded => exact absurd e hi
  case start => exact startConversion_sameCalibration k cmd w s
  case readT | readP | classify => exact ⟨rfl, rfl, rfl, rfl⟩

/-! ## `cal_valid` influences nothing but itself -/

/-- `cal_valid <- b`. -/
def setCalValid (b : Bool) (s : State) : State := { s with calValid := b }

/-- A change of the next state, where an operation has one. -/
def mapNext (f : State → State) : Step → Step
  | .next t => .next (f t)
  | .fault r => .fault r
  | .refused r => .refused r

/-- The refusals do not look at `cal_valid` (R181). -/
theorem sequencerRefusal_setCalValid (b : Bool) (k : Kind) (s : State) :
    sequencerRefusal k (setCalValid b s) = sequencerRefusal k s := by
  cases k <;> rfl

theorem unlessRefused_setCalValid (b : Bool) (k : Kind) (s : State) (run : Step) :
    unlessRefused k (setCalValid b s) (mapNext (setCalValid b) run) =
      mapNext (setCalValid b) (unlessRefused k s run) := by
  unfold unlessRefused
  rw [sequencerRefusal_setCalValid]
  cases sequencerRefusal k s <;> rfl

theorem withCoefs_setCalValid (b : Bool) (s : State) (run : Coefs → Step) :
    withCoefs (setCalValid b s) (fun c => mapNext (setCalValid b) (run c)) =
      mapNext (setCalValid b) (withCoefs s run) := by
  cases hc : s.coef with
  | none => rw [withCoefs_noValue _ hc, withCoefs_noValue (s := setCalValid b s) _ hc]; rfl
  | some c => rw [withCoefs_holds _ hc, withCoefs_holds (s := setCalValid b s) _ hc]

theorem startConversion_setCalValid (b : Bool) (k : Kind) (cmd : Byte) (w : Nat) (s : State) :
    startConversion k cmd w (setCalValid b s) = setCalValid b (startConversion k cmd w s) := by
  cases h : writeAnswer controlAddr [cmd] s.bus with
  | false => rw [startConversion_failed h, startConversion_failed (s := setCalValid b s) h]; rfl
  | true => rw [startConversion_accepted h, startConversion_accepted (s := setCalValid b s) h]; cases k <;> rfl

theorem finishReadT_setCalValid (b : Bool) (c : Coefs) (tu : Option Nat) (s : State) :
    finishReadT c tu (setCalValid b s) = setCalValid b (finishReadT c tu s) := by
  unfold finishReadT
  split
  · rfl
  · split <;> rfl

theorem finishReadP_setCalValid (b : Bool) (c : Coefs) (tIn : NUM) (bytes : Option (Vector Byte 3)) (s : State) :
    finishReadP c tIn bytes (setCalValid b s) = setCalValid b (finishReadP c tIn bytes s) := by
  unfold finishReadP
  split
  · rfl
  · dsimp only
    split <;> rfl

/-- A start does the same whatever `cal_valid` is. -/
theorem start_setCalValid (b : Bool) (k : Kind) (cmd : Byte) (w : Nat) (s : State) :
    unlessRefused k (setCalValid b s) (.next (startConversion k cmd w (setCalValid b s))) =
      mapNext (setCalValid b) (unlessRefused k s (.next (startConversion k cmd w s))) := by
  rw [startConversion_setCalValid]
  exact unlessRefused_setCalValid b k s (.next _)

/-- READ_T does the same whatever `cal_valid` is. -/
theorem execReadT_setCalValid (b : Bool) (s : State) :
    execReadT (setCalValid b s) = mapNext (setCalValid b) (execReadT s) := by
  unfold execReadT
  rw [← unlessRefused_setCalValid, ← withCoefs_setCalValid]
  simp only [mapNext, ← finishReadT_setCalValid]
  rfl

/-- READ_P does the same whatever `cal_valid` is. -/
theorem execReadP_setCalValid (b : Bool) (tIn : NUM) (s : State) :
    execReadP tIn (setCalValid b s) = mapNext (setCalValid b) (execReadP tIn s) := by
  unfold execReadP
  rw [← unlessRefused_setCalValid, ← withCoefs_setCalValid]
  simp only [mapNext, ← finishReadP_setCalValid]
  rfl

/-- Every operation but LOAD does the same whatever `cal_valid` is (R25). -/
theorem exec_setCalValid {i : Instr} (hi : i ≠ .load) (b : Bool) (s : State) :
    exec i (setCalValid b s) = mapNext (setCalValid b) (exec i s) := by
  cases i with
  | load => exact absurd rfl hi
  | readT => exact execReadT_setCalValid b s
  | readP tIn => exact execReadP_setCalValid b tIn s
  | classify pIn => rfl
  | startT | startP | cmdTemperature | cmdPressureOss0 | cmdPressureOss1 | cmdPressureOss2 | cmdPressureOss3 =>
    exact start_setCalValid b _ _ _ s

/-! ## The hardwired constants -/

/-- `p0`, `p1`, `p2` read as constants, whatever the state holds (R23). -/
@[simp] theorem readCoef_p0 (s : State) : readCoef s .p0 = some coefP0 := rfl
@[simp] theorem readCoef_p1 (s : State) : readCoef s .p1 = some coefP1 := rfl
@[simp] theorem readCoef_p2 (s : State) : readCoef s .p2 = some coefP2 := rfl

/-- The reduced fractions of the three constants (R114). -/
theorem coefP0_eq : coefP0 = 3783 / 1600 := by norm_num [coefP0]
theorem coefP1_eq : coefP1 = 1041219 / 1048576 := by norm_num [coefP1]
theorem coefP2_eq : coefP2 = 37975 / 8589934592 := by norm_num [coefP2]

/-! ## The statements -/

/-- Settles O42: by the cases of a step, each an update that keeps the invariant. -/
theorem stepKeepsInvariant : Obligations.StepKeepsInvariant :=
  fun _ _ h hs => h.step hs

/-- Settles O38: of the cases of a step, only LOAD and reset touch the calibration. -/
theorem onlyLoadChangesCalibration : Obligations.OnlyLoadChangesCalibration := by
  intro s t h hreset hload
  cases step_cases h with
  | idle ht => exact ht ▸ ⟨rfl, rfl, rfl, rfl⟩
  | operation e i rest hs hd he =>
    exact exec_sameCalibration (s := { s with inputs := rest }) (fun hi => hload e rest hs (hi ▸ hd)) he
  | elapsed k rest _ ht => simp [ht]
  | waited rest ht => exact ht ▸ ⟨rfl, rfl, rfl, rfl⟩
  | reset rest hs _ => exact absurd hs (hreset rest)

/-- Settles O39: every operation but LOAD commutes with a change of the flag, and LOAD keeps or overwrites it. -/
theorem validityFlagInfluencesNoOperation : Obligations.ValidityFlagInfluencesNoOperation := by
  refine ⟨fun i s b hi => ⟨fun t h => ?next, fun r h => ?refused⟩,
    fun s t b h => ⟨fun hv => ?failed, fun hv => ?loaded⟩⟩
  case next | refused => exact (exec_setCalValid hi b s).trans (congrArg (mapNext (setCalValid b)) h)
  case failed =>
    obtain rfl := Host.Outcome.next.inj ((execLoad_failed hv).symm.trans h)
    exact ⟨rfl, execLoad_failed (s := setCalValid b s) hv⟩
  case loaded =>
    obtain ⟨v, hv⟩ := Option.ne_none_iff_exists'.mp hv
    obtain rfl := Host.Outcome.next.inj ((execLoad_loaded hv).symm.trans h)
    exact execLoad_loaded (s := setCalValid b s) hv

/-- Settles O6: each field is cut out of the concatenation where it was put in. -/
theorem statusViewShowsFields : Obligations.StatusViewShowsFields := by
  refine ⟨fun s => ?fields, by decide⟩
  unfold statusView
  refine ⟨?loaded, ?valid, ?seqT, ?seqP, ?zero⟩
  case loaded => exact BitVec.extractLsb'_append_eq_right
  all_goals rw [BitVec.extractLsb'_append_eq_of_le (by decide)]
  case valid => exact BitVec.extractLsb'_append_eq_right
  all_goals rw [BitVec.extractLsb'_append_eq_of_le (by decide)]
  case seqT => exact BitVec.extractLsb'_append_eq_right
  all_goals rw [BitVec.extractLsb'_append_eq_of_le (by decide)]
  case seqP => exact BitVec.extractLsb'_append_eq_right
  case zero => exact BitVec.extractLsb'_append_eq_left

/-- Settles O11: the constants are those of every state, the other fields are the reset value's own. -/
theorem resetLeavesSpecifiedValues : Obligations.ResetLeavesSpecifiedValues := by
  refine ⟨rfl, rfl, ?_, ?_, ?_, rfl, rfl, rfl, rfl, rfl⟩
  · rw [readCoef_p0, coefP0_eq]
  · rw [readCoef_p1, coefP1_eq]
  · rw [readCoef_p2, coefP2_eq]

/-- Settles O18: the three constants in the document's form and as reduced fractions. -/
theorem hardwiredCoefficientsReadConstant : Obligations.HardwiredCoefficientsReadConstant := by
  intro s
  rw [readCoef_p0, readCoef_p1, readCoef_p2, coefP0_eq, coefP1_eq, coefP2_eq]
  norm_num

/-- Settles O41: no field of the reset state holds anything the invariant limits. -/
theorem resetSatisfiesInvariant : Obligations.ResetSatisfiesInvariant := consistent_reset

end Sys2Proof.Machine

/-! # Proofs of the memory statements (spec/20_memory.md): the byte layouts, the failed read, and the transactions of each
operation -/

namespace Sys2Proof.Machine

/-! ## The layouts of bus bytes are words (R44, R70, R83) -/

/-- The word of two bit vectors: the first one stands above the second. -/
theorem toNat_append_eq_add {n m : Nat} (x : BitVec n) (y : BitVec m) :
    (x ++ y).toNat = x.toNat * 2 ^ m + y.toNat := by
  rw [BitVec.toNat_append, ← Nat.shiftLeft_add_eq_or_of_lt y.isLt, Nat.shiftLeft_eq]

theorem u16be_eq_toNat (b0 b1 : Byte) : u16be b0 b1 = (b0 ++ b1 : BitVec 16).toNat :=
  (toNat_append_eq_add b0 b1).symm

theorem up24be_eq_toNat (b0 b1 b2 : Byte) : up24be b0 b1 b2 = (b0 ++ b1 ++ b2 : BitVec 24).toNat := by
  rw [toNat_append_eq_add, ← u16be_eq_toNat, up24be, u16be]
  omega

/-- `sext_16` of a word's plain value is its two's-complement value (R83). -/
theorem sext16_toNat (v : BitVec 16) : sext16 v.toNat = v.toInt := by
  rw [BitVec.toInt_eq_toNat_cond, sext16]
  split_ifs <;> omega

theorem i16be_eq_toInt (b0 b1 : Byte) : i16be b0 b1 = (b0 ++ b1 : BitVec 16).toInt := by
  rw [i16be, u16be_eq_toNat, sext16_toNat]

/-- The exact division of R71 splits off the last byte as the fraction. -/
theorem puOf_up24be (b0 b1 b2 : Byte) :
    puOf (up24be b0 b1 b2) = (b0.toNat : Rat) * 256 + b1.toNat + (b2.toNat : Rat) / 256 := by
  unfold puOf up24be
  push_cast
  ring

/-! ## A failed read (R55, R104) -/

/-- A failed read is one transaction, which the history notes as failed. -/
theorem memRead_failed {addr : Addr} {n : Nat} {b : Bus} (h : readAnswer addr n b = none) :
    memRead addr n b = (none, busRecord (.read addr n) .failed b) := by
  rw [memRead, h, readOutcome]

theorem rdI16_failed {addr : Addr} {b : Bus} (h : readAnswer addr 2 b = none) :
    rdI16 addr b = (none, busRecord (.read addr 2) .failed b) := by
  rw [rdI16, memRead_failed h, Option.map_none]

theorem rdU16_failed {addr : Addr} {b : Bus} (h : readAnswer addr 2 b = none) :
    rdU16 addr b = (none, busRecord (.read addr 2) .failed b) := by
  rw [rdU16, memRead_failed h, Option.map_none]

/-! ## The transactions of each operation (R47, R50, R111) -/

/-- LOAD makes its eleven reads in order, or a beginning of them, and then it reports the failure (R111). -/
theorem exec_load_requests {s t : State} (h : exec .load s = .next t) :
    ∃ (l : List Transaction) (r : Result), t.bus.trace = s.bus.trace ++ l ∧ t.result = some r ∧
      l.map Transaction.request <+: busRequests .load ∧
      (r.status ≠ .busTransportError → l.map Transaction.request = busRequests .load) ∧
      ∀ x ∈ l, x.device = 0x77#8 := by
  obtain ⟨l, htrace, hprefix, hall, hdevice, -⟩ := reads_readCalibration s.bus
  change execLoad s = .next t at h
  cases hv : (readCalibration s.bus).1 with
  | none =>
    obtain rfl := Host.Outcome.next.inj ((execLoad_failed hv).symm.trans h)
    exact ⟨l, _, htrace, rfl, hprefix, fun hr => absurd rfl hr, fun x hx => (hdevice x hx).1⟩
  | some v =>
    obtain rfl := Host.Outcome.next.inj ((execLoad_loaded hv).symm.trans h)
    exact ⟨l, _, htrace, rfl, hprefix, fun _ => hall (by rw [hv]; rfl), fun x hx => (hdevice x hx).1⟩

/-- A start makes one transaction, the write of its command byte, and ends with a result record (R131). -/
theorem startConversion_bus_result (k : Kind) (cmd : Byte) (w : Nat) (s : State) :
    ∃ (a : Answer) (r : Result), (startConversion k cmd w s).bus = busRecord (.write controlAddr [cmd]) a s.bus ∧
      (startConversion k cmd w s).result = some r := by
  rcases startConversion_cases k cmd w s with e | e <;> rw [e]
  · exact ⟨.ok [], _, by rw [finish_bus, setStartedWait_bus, setSeq_bus], rfl⟩
  · exact ⟨.failed, _, rfl, rfl⟩

/-- Every other operation makes at most one transaction, its request, whatever the bus answers to it. -/
theorem exec_bus_of_ne_load {i : Instr} {s t : State} (hi : i ≠ .load) (h : exec i s = .next t) :
    (∃ r, t.result = some r) ∧
      ((busRequests i = [] ∧ t.bus = s.bus) ∨ ∃ q a, busRequests i = [q] ∧ t.bus = busRecord q a s.bus) := by
  rcases exec_cases h with ⟨hl, -, -⟩ | ⟨-, hl, -, -⟩ | ⟨k, cmd, w, -, hq, -, -, -, -, rfl⟩ |
    ⟨r, rfl, -, -, rfl⟩ | ⟨tIn, r, rfl, -, -, rfl⟩ | ⟨p, rfl, rfl⟩
  case loadFailed | loaded => exact absurd hl hi
  case start =>
    obtain ⟨a, r, hbus, hr⟩ := startConversion_bus_result k cmd w s
    exact ⟨⟨r, hr⟩, .inr ⟨_, a, hq, hbus⟩⟩
  case readT | readP => exact ⟨⟨r, rfl⟩, .inr ⟨_, _, rfl, rfl⟩⟩
  case classify => exact ⟨⟨_, rfl⟩, .inl ⟨rfl, rfl⟩⟩

/-- Every operation but LOAD makes all its transactions. -/
theorem exec_requests_of_ne_load {i : Instr} {s t : State} (hi : i ≠ .load) (h : exec i s = .next t) :
    ∃ (l : List Transaction) (r : Result), t.bus.trace = s.bus.trace ++ l ∧ t.result = some r ∧
      l.map Transaction.request = busRequests i ∧ ∀ x ∈ l, x.device = 0x77#8 := by
  obtain ⟨⟨r, hr⟩, ⟨hq, hbus⟩ | ⟨q, a, hq, hbus⟩⟩ := exec_bus_of_ne_load hi h
  · exact ⟨[], r, by simp [hbus], hr, hq.symm, by simp⟩
  · exact ⟨[⟨0x77#8, q, a⟩], r, by rw [hbus, busRecord_trace], hr, hq.symm, by simp⟩

/-- Transactions whose requests are a beginning of an operation's touch the addresses of R42 only (R46). -/
theorem touchedAddrs_of_prefix_busRequests {i : Instr} {l : List Transaction}
    (h : l.map Transaction.request <+: busRequests i) {x : Transaction} (hx : x ∈ l) :
    ∀ a ∈ touchedAddrs x.request, (0xAA ≤ a ∧ a ≤ 0xBF) ∨ a = 0xF4 ∨ (0xF6 ≤ a ∧ a ≤ 0xF8) :=
  touchedAddrs_legal (busRequests_legal (h.subset (List.mem_map_of_mem hx)))

/-! ## The statements -/

/-- Settles O35: LOAD may stop early, every other operation makes all its requests. -/
theorem operationsMakeOnlyTheirTransactions : Obligations.OperationsMakeOnlyTheirTransactions := by
  intro i s t h
  by_cases hi : i = .load
  · subst hi
    obtain ⟨l, r, htrace, hr, hprefix, hall, hdevice⟩ := exec_load_requests h
    exact ⟨l, r, htrace, hr, hprefix, hall, fun hne => absurd rfl hne,
      fun x hx => ⟨hdevice x hx, touchedAddrs_of_prefix_busRequests hprefix hx⟩⟩
  · obtain ⟨l, r, htrace, hr, hall, hdevice⟩ := exec_requests_of_ne_load hi h
    have hprefix : l.map Transaction.request <+: busRequests i := hall ▸ List.prefix_rfl
    exact ⟨l, r, htrace, hr, hprefix, fun _ => hall, fun _ => hall,
      fun x hx => ⟨hdevice x hx, touchedAddrs_of_prefix_busRequests hprefix hx⟩⟩

/-- Settles O5: each layout is the value of the bytes' concatenation. -/
theorem layoutsAreBigEndianWords : Obligations.LayoutsAreBigEndianWords := fun b0 b1 b2 =>
  ⟨i16be_eq_toInt b0 b1, u16be_eq_toNat b0 b1, up24be_eq_toNat b0 b1 b2, puOf_up24be b0 b1 b2⟩

/-- Settles O15: all three read primitives are one failed transaction and no value. -/
theorem failedReadGivesNoValue : Obligations.FailedReadGivesNoValue := fun _ _ _ =>
  ⟨fun h => ⟨⟨_, rdI16_failed h, busRecord_trace _ _ _⟩, ⟨_, rdU16_failed h, busRecord_trace _ _ _⟩⟩,
    fun h => ⟨_, memRead_failed h, busRecord_trace _ _ _⟩⟩

end Sys2Proof.Machine

/-! # Proofs of the encoding statements (spec/30_encoding.md): the decoder and the encoder, the start of a conversion, the
host's WAIT and the MEASURE sequences, and the result record of every operation -/

namespace Sys2Proof.Machine

/-! ## The packed word and its fields (R60) -/

/-- The packed word is its fields `oss` and `op` with the five bits between them. -/
theorem word_eq_fields (word : BitVec 40) :
    word.extractLsb' 8 32 ++ word.extractLsb' 3 5 ++ opField word = word := by
  have hupper : word.extractLsb' 8 32 ++ word.extractLsb' 3 5 = word.extractLsb' 3 37 :=
    BitVec.extractLsb'_append_extractLsb'_eq_extractLsb' rfl
  have hword : word.extractLsb' 3 37 ++ opField word = word.extractLsb' 0 40 :=
    BitVec.extractLsb'_append_extractLsb'_eq_extractLsb' rfl
  rw [hupper, hword, BitVec.extractLsb'_eq_self]

/-- The field `oss` of a START_P word is the operand's 32 bits (R63). -/
theorem ossField_startP (oss : Int) :
    ossField (BitVec.ofInt 32 oss ++ 0#5 ++ 3#3) = (BitVec.ofInt 32 oss).toInt := by
  unfold ossField
  rw [BitVec.extractLsb'_append_eq_of_le (by decide)]
  exact congrArg BitVec.toInt BitVec.extractLsb'_append_eq_left

/-- The operand of START_P keeps every bit of its field. -/
theorem ofInt_ossField (word : BitVec 40) : BitVec.ofInt 32 (ossField word) = word.extractLsb' 8 32 :=
  BitVec.ofInt_toInt

/-- The operands of START_P are the values of 32 bits in two's complement (R60, R63). -/
theorem wellFormed_startP_iff {oss : Int} :
    Instr.wellFormed (.startP oss) = true ↔ -2 ^ 31 ≤ oss ∧ oss < 2 ^ 31 := by
  simp only [Instr.wellFormed, Bool.and_eq_true, decide_eq_true_eq]
  omega

/-- A well-formed START_P operand is the value of its 32 bits (R63). -/
theorem toInt_ofInt_of_wellFormed {oss : Int} (h : Instr.wellFormed (.startP oss) = true) :
    (BitVec.ofInt 32 oss).toInt = oss :=
  have ⟨hlo, hhi⟩ := wellFormed_startP_iff.mp h
  BitVec.toInt_ofInt_eq_self (by decide) hlo hhi

/-- What the field `oss` can hold is a well-formed START_P operand. -/
theorem wellFormed_startP_ossField (word : BitVec 40) : Instr.wellFormed (.startP (ossField word)) = true :=
  wellFormed_startP_iff.mpr ⟨BitVec.le_toInt _, BitVec.toInt_lt⟩

/-! ## The decoder on a record, code by code (R61) -/

theorem decode_op_load {r : OpRecord} (h : opField r.word = 0#3) : decode (.op r) = .ok .load := by
  simp [decode, decodeRecord, h]

theorem decode_op_startT {r : OpRecord} (h : opField r.word = 1#3) : decode (.op r) = .ok .startT := by
  simp [decode, decodeRecord, h]

theorem decode_op_readT {r : OpRecord} (h : opField r.word = 2#3) : decode (.op r) = .ok .readT := by
  simp [decode, decodeRecord, h]

theorem decode_op_startP {r : OpRecord} {oss : Int} (h : opField r.word = 3#3) (ho : ossField r.word = oss) :
    decode (.op r) = .ok (.startP oss) := by
  simp [decode, decodeRecord, h, ho]

theorem decode_op_readP {r : OpRecord} (h : opField r.word = 4#3) : decode (.op r) = .ok (.readP r.tIn) := by
  simp [decode, decodeRecord, h]

theorem decode_op_classify {r : OpRecord} (h : opField r.word = 5#3) :
    decode (.op r) = .ok (.classify r.pIn) := by
  simp [decode, decodeRecord, h]

/-- The inversion law of the decoder on a record: which code selects which instruction. -/
theorem decode_op_cases {r : OpRecord} {i : Instr} (h : decode (.op r) = .ok i) :
    (opField r.word = 0#3 ∧ i = .load) ∨ (opField r.word = 1#3 ∧ i = .startT) ∨
    (opField r.word = 2#3 ∧ i = .readT) ∨ (opField r.word = 3#3 ∧ i = .startP (ossField r.word)) ∨
    (opField r.word = 4#3 ∧ i = .readP r.tIn) ∨ (opField r.word = 5#3 ∧ i = .classify r.pIn) := by
  change decodeRecord r = .ok i at h
  unfold decodeRecord at h
  split at h <;> cases h <;> simp [*]

/-- A byte that decodes is the encoding of the instruction it decodes to (R64). -/
theorem decode_ctrlByte_ok {b : Byte} {i : Instr} (h : decode (.ctrlByte b) = .ok i) :
    i.wellFormed = true ∧ encode i = .ctrlByte b := by
  change decodeCommandByte b = .ok i at h
  unfold decodeCommandByte at h
  split at h <;> cases h <;> exact ⟨rfl, rfl⟩

/-! ## Encoding and decoding are inverse -/

/-- Every well-formed instruction comes back from its encoding (R60, R61, R63, R64). -/
theorem decode_encode {i : Instr} (h : i.wellFormed = true) : decode (encode i) = .ok i := by
  cases i with
  | startP oss =>
    exact decode_op_startP (opField_startP oss) ((ossField_startP oss).trans (toInt_ofInt_of_wellFormed h))
  | load => exact decode_op_load rfl
  | startT => exact decode_op_startT rfl
  | readT => exact decode_op_readT rfl
  | readP tIn => exact decode_op_readP rfl
  | classify pIn => exact decode_op_classify rfl
  | cmdTemperature | cmdPressureOss0 | cmdPressureOss1 | cmdPressureOss2 | cmdPressureOss3 => rfl

/-- What the decoder reads is well-formed: the operand of START_P has the width of its field (R60). -/
theorem decode_wellFormed {e : Encoded} {i : Instr} (h : decode e = .ok i) : i.wellFormed = true := by
  cases e with
  | op r =>
    rcases decode_op_cases h with ⟨-, rfl⟩ | ⟨-, rfl⟩ | ⟨-, rfl⟩ | ⟨-, rfl⟩ | ⟨-, rfl⟩ | ⟨-, rfl⟩
    case inr.inr.inr.inl => exact wellFormed_startP_ossField r.word
    all_goals rfl
  | ctrlByte b => exact (decode_ctrlByte_ok h).1

/-- A field that is used, or is 0, holds what is kept of it. -/
theorem ite_eq_left_of_or {α : Type} {used : Prop} [Decidable used] {field zero : α} (h : used ∨ field = zero) :
    (if used then field else zero) = field :=
  ite_eq_left_iff.mpr fun hne => (h.resolve_left hne).symm

/-- A canonical record is made of its code and, where its operation uses them, `oss`, `t_in` and `p_in`. -/
theorem canonical_op {r : OpRecord} (h : canonical (.op r) = true) :
    r = { word := (if opField r.word = 3#3 then r.word.extractLsb' 8 32 else 0#32) ++ 0#5 ++ opField r.word
          tIn := if opField r.word = 4#3 then r.tIn else 0
          pIn := if opField r.word = 5#3 then r.pIn else 0 } := by
  simp only [canonical, Bool.and_eq_true, Bool.or_eq_true, decide_eq_true_eq] at h
  obtain ⟨⟨⟨hgap, hoss⟩, htIn⟩, hpIn⟩ := h
  rw [ite_eq_left_of_or hoss, ite_eq_left_of_or htIn, ite_eq_left_of_or hpIn, ← hgap, word_eq_fields]

/-- A canonical form that decodes is the encoding of what it decodes to (R60). -/
theorem encode_of_decode {e : Encoded} {i : Instr} (h : decode e = .ok i) (hc : canonical e = true) :
    encode i = e := by
  cases e with
  | op r =>
    refine .trans ?_ (congrArg Encoded.op (canonical_op hc).symm)
    rcases decode_op_cases h with ⟨hop, rfl⟩ | ⟨hop, rfl⟩ | ⟨hop, rfl⟩ | ⟨hop, rfl⟩ | ⟨hop, rfl⟩ | ⟨hop, rfl⟩
    all_goals simp [encode, hop, plainRecord, ofInt_ossField]
  | ctrlByte b => exact (decode_ctrlByte_ok h).2

/-! ## The statements about the decoder and the encoder -/

/-- Settles O3: START_P's operand is the value of its 32 bits, every other instruction decodes by its code alone. -/
theorem encodeThenDecodeReturnsInstruction : Obligations.EncodeThenDecodeReturnsInstruction :=
  fun _ h => decode_encode h

/-- Settles O4: by the decoder's inversion laws; a canonical record holds nothing but the fields that are decoded. -/
theorem decodeThenEncodeReturnsCanonicalForm : Obligations.DecodeThenEncodeReturnsCanonicalForm :=
  fun _ _ h => ⟨decode_wellFormed h, encode_of_decode h⟩

/-- Settles O1: the decoder code by code, the reserved codes among them. -/
theorem operationCodeSelectsOperation : Obligations.OperationCodeSelectsOperation := fun _ =>
  ⟨decode_op_load, decode_op_startT, decode_op_readT, fun h => decode_op_startP h rfl, decode_op_readP,
    decode_op_classify, fun h => h ▸ decode_op_reserved (.inl h), fun h => h ▸ decode_op_reserved (.inr h)⟩

/-- Settles O2: each word's code and, for START_P, its field `oss` are read off; each command byte is an encoding. -/
theorem wordsOfTheSpecDecode : Obligations.WordsOfTheSpecDecode := by
  refine ⟨decode_op_load rfl, decode_op_startT rfl, decode_op_readT rfl, ?_, ?_, ?_, ?_, ?_, ?_, ?_, ?_,
    decode_op_readP rfl, decode_op_classify rfl, decode_encode (i := .cmdTemperature) rfl,
    decode_encode (i := .cmdPressureOss0) rfl, decode_encode (i := .cmdPressureOss1) rfl,
    decode_encode (i := .cmdPressureOss2) rfl, decode_encode (i := .cmdPressureOss3) rfl⟩
  all_goals exact decode_op_startP rfl rfl

/-! ## The start of a conversion (R131, R64, R65) -/

/-- Nothing changed but `seq[k]`, the result record, the bus and the wait remembered for kind `k`. -/
def OnlyStartFieldsChanged (s t : State) : Kind → Prop
  | .T => t = { s with seqT := t.seqT, result := t.result, bus := t.bus, startedWaitT := t.startedWaitT }
  | .P => t = { s with seqP := t.seqP, result := t.result, bus := t.bus, startedWaitP := t.startedWaitP }

/-- From `s`, the start of kind `k` that writes `cmd` and hands out `w` leaves `t` (R131, R150). -/
structure StartsConversion (k : Kind) (cmd : Byte) (w : Nat) (s t : State) : Prop where
  accepted : writeAnswer 0xF4#8 [cmd] s.bus = true →
    seqOf t k = .conversionPending ∧ t.result = some { status := .ok, waitMs := some w } ∧
    startedWait t k = some w
  acceptedTrace : writeAnswer 0xF4#8 [cmd] s.bus = true →
    t.bus.trace = s.bus.trace ++ [⟨0x77#8, .write 0xF4#8 [cmd], .ok []⟩]
  failed : writeAnswer 0xF4#8 [cmd] s.bus = false →
    seqOf t k = seqOf s k ∧ t.result = some { status := .busTransportError, waitMs := some 0 } ∧
    startedWait t k = startedWait s k
  failedTrace : writeAnswer 0xF4#8 [cmd] s.bus = false →
    t.bus.trace = s.bus.trace ++ [⟨0x77#8, .write 0xF4#8 [cmd], .failed⟩]
  requests : t.bus.trace.map Transaction.request =
    s.bus.trace.map Transaction.request ++ [.write 0xF4#8 [cmd]]
  frame : OnlyStartFieldsChanged s t k

/-- What the start procedure does, said once for both kinds. -/
theorem startConversion_starts (k : Kind) (cmd : Byte) (w : Nat) (s : State) :
    StartsConversion k cmd w s (startConversion k cmd w s) where
  accepted h := by
    rw [startConversion_accepted h]
    cases k <;> exact ⟨rfl, rfl, rfl⟩
  acceptedTrace h := by
    rw [startConversion_accepted h, finish_bus, setStartedWait_bus, setSeq_bus]
    exact busRecord_trace _ _ _
  failed h := by
    rw [startConversion_failed h]
    cases k <;> exact ⟨rfl, rfl, rfl⟩
  failedTrace h := by
    rw [startConversion_failed h, finish_bus]
    exact busRecord_trace _ _ _
  requests := by
    obtain ⟨a, -, hbus, -⟩ := startConversion_bus_result k cmd w s
    rw [hbus, busRecord_trace, List.map_append]
    rfl
  frame := by
    rcases startConversion_cases k cmd w s with e | e <;> rw [e] <;> cases k <;> rfl

/-- A start leaves the host's inputs. -/
theorem StartsConversion.inputs {k : Kind} {cmd : Byte} {w : Nat} {s t : State} (h : StartsConversion k cmd w s t) :
    t.inputs = s.inputs := by
  cases k <;> rw [show t = _ from h.frame]

/-- A start where it is not refused (R151, R152). -/
theorem unlessRefused_start_runs {k : Kind} {cmd : Byte} {w : Nat} {s : State} (hl : s.calLoaded = true)
    (ho : seqOf s (otherKind k) = .idle) :
    ∃ t, unlessRefused k s (.next (startConversion k cmd w s)) = .next t ∧ StartsConversion k cmd w s t :=
  ⟨_, unlessRefused_runs _ hl ho, startConversion_starts k cmd w s⟩

/-- The command and the wait that a START_P operand selects (R63, R138). -/
theorem pressureSetting_eq (oss : Int) :
    (pressureCommand (effectiveOss oss), pressureWait (effectiveOss oss)) =
      (if oss = 1 then (0x74#8, 8) else if oss = 2 then (0xB4#8, 14)
        else if oss = 3 then (0xF4#8, 26) else (0x34#8, 5)) := by
  unfold effectiveOss
  split_ifs <;> rfl

/-- START_P runs the start procedure with the command and the wait its operand selects (R137, R138). -/
theorem exec_startP {oss : Int} {cmd : Byte} {w : Nat} (s : State)
    (h : (cmd, w) = (if oss = 1 then (0x74#8, 8) else if oss = 2 then (0xB4#8, 14)
      else if oss = 3 then (0xF4#8, 26) else (0x34#8, 5))) :
    exec (.startP oss) s = unlessRefused .P s (.next (startConversion .P cmd w s)) := by
  obtain ⟨rfl, rfl⟩ := Prod.mk.inj (h.trans (pressureSetting_eq oss).symm)
  rfl

/-- The pressure command bytes as instructions, each with its byte and its wait (R64, R65). -/
def pressureCommandRows : List (Instr × Byte × Nat) :=
  [(.cmdPressureOss0, 0x34#8, 5), (.cmdPressureOss1, 0x74#8, 8), (.cmdPressureOss2, 0xB4#8, 14),
    (.cmdPressureOss3, 0xF4#8, 26)]

/-- A pressure command byte runs the start procedure for itself and its wait (assumption 9). -/
theorem exec_pressureCommand {i : Instr} {cmd : Byte} {w : Nat} (s : State)
    (h : (i, cmd, w) ∈ pressureCommandRows) :
    exec i s = unlessRefused .P s (.next (startConversion .P cmd w s)) := by
  simp only [pressureCommandRows, List.mem_cons, List.not_mem_nil, or_false, Prod.mk.injEq] at h
  rcases h with ⟨rfl, rfl, rfl⟩ | ⟨rfl, rfl, rfl⟩ | ⟨rfl, rfl, rfl⟩ | ⟨rfl, rfl, rfl⟩ <;> rfl

/-- Every operation that starts a conversion runs the start procedure for some byte and wait. -/
theorem exec_start {i : Instr} {k : Kind} (s : State) (h : startsKind i = some k) :
    ∃ cmd w, exec i s = unlessRefused k s (.next (startConversion k cmd w s)) := by
  cases i with
  | load | readT | readP | classify => simp [startsKind] at h
  | startT | startP | cmdTemperature | cmdPressureOss0 | cmdPressureOss1 | cmdPressureOss2
  | cmdPressureOss3 =>
    cases h
    exact ⟨_, _, rfl⟩

/-- A start of kind `k` is refused for the reasons of R181 (b) and (c) alone, whichever operation starts it. -/
theorem exec_start_refused_iff {i : Instr} {k : Kind} {s : State} {r : Refusal} (h : startsKind i = some k) :
    exec i s = .refused r ↔ sequencerRefusal k s = some r := by
  obtain ⟨cmd, w, e⟩ := exec_start s h
  rw [e, unlessRefused_answers_refused_iff]

/-! ## The statements about the starts -/

/-- Settles O24: START_P is the start procedure with the command and the wait its operand selects. -/
theorem startPressureSelectsCommandAndWait : Obligations.StartPressureSelectsCommandAndWait := by
  intro s oss cmd w hl ht hsel
  rw [exec_startP s hsel]
  obtain ⟨t, e, h⟩ := unlessRefused_start_runs (k := .P) (cmd := cmd) (w := w) hl ht
  refine ⟨t, e, fun ha => ?accepted, fun hf => ?failed, h.frame⟩
  case accepted =>
    obtain ⟨hseq, hresult, hwait⟩ := h.accepted ha
    exact ⟨hseq, hresult, hwait, h.acceptedTrace ha⟩
  case failed =>
    obtain ⟨hseq, hresult, hwait⟩ := h.failed hf
    exact ⟨hseq, hresult, hwait, h.failedTrace hf⟩

/-- Settles O25: the byte runs the start procedure for itself. -/
theorem temperatureCommandStartsConversion : Obligations.TemperatureCommandStartsConversion := by
  intro s hl hp
  obtain ⟨t, e, h⟩ := unlessRefused_start_runs (k := .T) (cmd := 0x2E#8) (w := 5) hl hp
  exact ⟨t, e, h.accepted, h.failed, h.requests, h.frame⟩

/-- Settles O26: each of the four bytes runs the start procedure for itself and its wait. -/
theorem pressureCommandsStartConversion : Obligations.PressureCommandsStartConversion := by
  intro s i cmd w hl ht hi
  rw [exec_pressureCommand s hi]
  obtain ⟨t, e, h⟩ := unlessRefused_start_runs (k := .P) (cmd := cmd) (w := w) hl ht
  exact ⟨t, e, h.accepted, h.failed, h.requests, h.frame⟩

/-- Settles O27: a start is refused for the state's reasons alone, and those name `cal_loaded` = 0 first. -/
theorem commandBytesAreRefusedLikeStart : Obligations.CommandBytesAreRefusedLikeStart := by
  intro s i hi
  have hk : startsKind i = some .P := by
    simp only [List.mem_cons, List.not_mem_nil, or_false] at hi
    rcases hi with rfl | rfl | rfl | rfl <;> rfl
  refine ⟨fun r => ?temperature, fun oss r => ?pressure, fun hl => ?notLoaded, fun hl => ?otherBusy⟩
  case temperature =>
    exact (exec_start_refused_iff (k := .T) rfl).trans (exec_start_refused_iff (k := .T) rfl).symm
  case pressure => exact (exec_start_refused_iff hk).trans (exec_start_refused_iff (k := .P) rfl).symm
  case notLoaded =>
    exact ⟨exec_refused_notLoaded (k := .T) (.inl rfl) hl, exec_refused_notLoaded (.inl hk) hl⟩
  case otherBusy =>
    exact ⟨fun hp => exec_refused_otherBusy (k := .T) (.inl rfl) hl hp,
      fun ht => exec_refused_otherBusy (.inl hk) hl ht⟩

/-! ## The host's WAIT (R72, R148) -/

/-- The other kind's protocol state is not `setSeq`'s to change. -/
theorem seqOf_setSeq_of_ne : ∀ {k k' : Kind}, k' ≠ k → ∀ (v : SeqState) (s : State),
    seqOf (setSeq k v s) k' = seqOf s k'
  | .T, .P, _, _, _ | .P, .T, _, _, _ => rfl
  | .T, .T, h, _, _ | .P, .P, h, _, _ => absurd rfl h

/-- Writing to `seq[k]` what it holds changes nothing. -/
theorem setSeq_seqOf_self (k : Kind) (s : State) : setSeq k (seqOf s k) s = s := by
  cases k <;> rfl

/-- Taking an input off the host's list leaves the remembered waits. -/
@[simp] theorem startedWait_withInputs (s : State) (inputs : List HostInput) (k : Kind) :
    startedWait { s with inputs := inputs } k = startedWait s k := by cases k <;> rfl

/-- A WAIT for kind `k` changes `seq[k]` at most. -/
theorem runWait_eq_setSeq (k : Kind) (d : WaitLength) (s : State) :
    runWait k d s = setSeq k (seqOf (runWait k d s) k) s := by
  rcases runWait_cases k d s with ⟨-, e⟩ | e <;> rw [e]
  · rw [seqOf_setSeq_same]
  · rw [setSeq_seqOf_self]

/-- The input WAIT always answers. -/
theorem step_wait {s : State} {k : Kind} {d : WaitLength} {rest : List HostInput}
    (h : s.inputs = .wait k d :: rest) : step s = .next (runWait k d { s with inputs := rest }) :=
  step_input h

/-- Settles O10: a WAIT is `elapse(k)` or changes nothing, and it touches `seq[k]` alone. -/
theorem waitElapsesOnlyWhenLongEnough : Obligations.WaitElapsesOnlyWhenLongEnough := by
  intro s k d ms rest hs hms
  have hwaited : waitedMs d { s with inputs := rest } = ms := by
    rcases hms with rfl | ⟨rfl, rfl⟩
    · rfl
    · exact waitedMs_returned _
  have hset := runWait_eq_setSeq k d { s with inputs := rest }
  refine ⟨_, step_wait hs, fun ⟨w, hp, hw, hle⟩ => ?longEnough, fun h => ?tooShort, fun k' hk => ?otherKind, ?frame⟩
  case longEnough =>
    rw [runWait_elapses (w := w) (by simpa using hp) (by simpa using hw) (hwaited ▸ hle), seqOf_setSeq_same]
  case tooShort =>
    rw [runWait_keeps (by simpa [hwaited] using h), seqOf_withInputs]
  case otherKind => rw [hset, seqOf_setSeq_of_ne hk, seqOf_withInputs]
  case frame => rw [hset]; cases k <;> rfl

/-! ## MEASURE_T and MEASURE_P (R72) -/

/-- The wait just returned is long enough for the conversion it was handed out for (R148). -/
theorem runWait_returned_elapses {k : Kind} {s : State} {w : Nat} {st : Status}
    (hp : seqOf s k = .conversionPending) (hr : s.result = some { status := st, waitMs := some w })
    (hw : startedWait s k = some w) : seqOf (runWait k .returned s) k = .resultReady := by
  have hle : w ≤ waitedMs .returned s := by simp [waitedMs_returned, hr]
  rw [runWait_elapses hp hw hle, seqOf_setSeq_same]

/-- Every wait that a start hands out is positive (R65). -/
theorem legalWait_pos {k : Kind} {w : Nat} (h : legalWait k w) : 0 < w := by
  cases k <;> simp only [legalWait, List.mem_cons, List.not_mem_nil, or_false] at h <;> omega

/-- A returned wait of 0 makes nothing ready, since every pending conversion's wait is positive (R131). -/
theorem runWait_returned_zero {k : Kind} {s : State} {st : Status}
    (hr : s.result = some { status := st, waitMs := some 0 })
    (hwait : seqOf s k = .conversionPending → ∃ w, startedWait s k = some w ∧ legalWait k w) :
    runWait k .returned s = s := by
  refine runWait_keeps fun ⟨w, hp, hw, hle⟩ => ?_
  obtain ⟨w', hw', hlegal⟩ := hwait hp
  obtain rfl : w = w' := Option.some.inj (hw.symm.trans hw')
  have hzero : waitedMs .returned s = 0 := by simp [waitedMs_returned, hr]
  exact absurd (legalWait_pos hlegal) (by omega)

/-- After an accepted start, the WAIT of the returned wait makes the result ready. -/
theorem StartsConversion.returnedWait_accepted {k : Kind} {cmd : Byte} {w : Nat} {s t : State}
    (h : StartsConversion k cmd w s t) (ha : writeAnswer 0xF4#8 [cmd] s.bus = true) (inputs : List HostInput) :
    seqOf (runWait k .returned { t with inputs := inputs }) k = .resultReady := by
  obtain ⟨hseq, hresult, hwait⟩ := h.accepted ha
  exact runWait_returned_elapses (by simpa using hseq) hresult (by simpa using hwait)

/-- After a failed start, the WAIT of the returned wait leaves `seq[k]` as it was before the start. -/
theorem StartsConversion.returnedWait_failed {k : Kind} {cmd : Byte} {w : Nat} {s t : State}
    (h : StartsConversion k cmd w s t) (hf : writeAnswer 0xF4#8 [cmd] s.bus = false) (hc : Consistent s)
    (inputs : List HostInput) : seqOf (runWait k .returned { t with inputs := inputs }) k = seqOf s k := by
  obtain ⟨hseq, hresult, hwait⟩ := h.failed hf
  have hkeeps : runWait k .returned { t with inputs := inputs } = { t with inputs := inputs } :=
    runWait_returned_zero hresult (by simpa [hseq, hwait] using hc.wait k)
  rw [hkeeps, seqOf_withInputs, hseq]

/-- The three inputs of a MEASURE of kind `k`, one a step: the start, the WAIT of the returned wait, the read. -/
theorem measure_steps {k : Kind} {start read : Instr} {cmd : Byte} {w : Nat} {s : State} {rest : List HostInput}
    (hs : s.inputs = .present (encode start) :: .wait k .returned :: .present (encode read) :: rest)
    (hstart : start.wellFormed = true) (hread : read.wellFormed = true)
    (hrun : ∀ s', exec start s' = unlessRefused k s' (.next (startConversion k cmd w s')))
    (hl : s.calLoaded = true) (ho : seqOf s (otherKind k) = .idle) :
    ∃ s1 s2, step s = .next s1 ∧ step s1 = .next s2 ∧ step s2 = exec read { s2 with inputs := rest } ∧
      exec start { s with inputs := .wait k .returned :: .present (encode read) :: rest } = .next s1 ∧
      s2 = setSeq k (seqOf s2 k) { s1 with inputs := .present (encode read) :: rest } ∧
      (writeAnswer 0xF4#8 [cmd] s.bus = true →
        seqOf s1 k = .conversionPending ∧ s1.result = some { status := .ok, waitMs := some w } ∧
        seqOf s2 k = .resultReady) ∧
      (writeAnswer 0xF4#8 [cmd] s.bus = false → Consistent s →
        s1.result = some { status := .busTransportError, waitMs := some 0 } ∧ seqOf s2 k = seqOf s k) := by
  obtain ⟨s1, hexec, hstarts⟩ := unlessRefused_start_runs (k := k) (cmd := cmd) (w := w)
    (s := { s with inputs := .wait k .returned :: .present (encode read) :: rest }) hl (by simpa using ho)
  rw [← hrun] at hexec
  refine ⟨s1, _, (step_present_ok hs (decode_encode hstart)).trans hexec, step_wait hstarts.inputs,
    step_present_ok ?inputs (decode_encode hread), hexec, runWait_eq_setSeq _ _ _, fun ha => ?accepted,
    fun hf hc => ?failed⟩
  case inputs => rw [runWait_eq_setSeq, setSeq_inputs]
  case accepted =>
    obtain ⟨hseq, hresult, -⟩ := hstarts.accepted ha
    exact ⟨hseq, hresult, hstarts.returnedWait_accepted ha _⟩
  case failed =>
    obtain ⟨-, hresult, -⟩ := hstarts.failed hf
    exact ⟨hresult, (hstarts.returnedWait_failed hf (hc.withInputs _) _).trans (seqOf_withInputs _ _ _)⟩

/-- Settles O45: MEASURE_T and MEASURE_P are the two kinds of one sequence of steps. -/
theorem measureRunsStartWaitRead : Obligations.MeasureRunsStartWaitRead :=
  ⟨fun _ _ hs hl hp => measure_steps (k := .T) hs rfl rfl (fun _ => rfl) hl hp,
    fun _ _ _ _ _ _ hs hoss hsel hl ht =>
      measure_steps (k := .P) hs hoss rfl (fun s' => exec_startP s' hsel) hl ht⟩

/-! ## The result record of every operation (R67, R68, R183) -/

/-- The result records that an operation which answered can have driven. -/
inductive DrivesResult : Instr → Result → Prop
  /-- LOAD (R117). -/
  | load (st : Status) : st ≠ .computationError → DrivesResult .load { status := st }
  /-- A start with the write accepted (R65, R131). -/
  | started {i : Instr} {k : Kind} (w : Nat) : startsKind i = some k → w ∈ [5, 8, 14, 26] →
      DrivesResult i { status := .ok, waitMs := some w }
  /-- A start with the write failed (R131). -/
  | notStarted {i : Instr} {k : Kind} : startsKind i = some k →
      DrivesResult i { status := .busTransportError, waitMs := some 0 }
  /-- A read without a reading: the bus failed, or the divisor is zero (R135, R143). -/
  | noReading {i : Instr} {k : Kind} (st : Status) : readsKind i = some k →
      st = .busTransportError ∨ st = .computationError → DrivesResult i { status := st }
  /-- READ_T with a reading (R133). -/
  | readingT (n : BitVec 16) (v : NUM) : DrivesResult .readT { status := .ok, raw := some (.tu n), value := some v }
  /-- READ_P with a reading (R140). -/
  | readingP (tIn : NUM) (n : BitVec 24) (v : NUM) :
      DrivesResult (.readP tIn) { status := .ok, raw := some (.up24 n), value := some v }
  /-- CLASSIFY (R160). -/
  | band (p : NUM) : DrivesResult (.classify p) { status := .ok, band := some (bandOf p) }

/-- LOAD's validity check reports OK or CalibrationInvalid (R117). -/
theorem validityStatus_ne_computationError (valid : Bool) : validityStatus valid ≠ .computationError := by
  cases valid <;> decide

/-- The waits that a start of either kind hands out (R65). -/
theorem legalWait_mem {k : Kind} {w : Nat} (h : legalWait k w) : w ∈ [5, 8, 14, 26] := by
  cases k with
  | T => simp [show w = 5 from h]
  | P => exact h

/-- A read ends without a reading, or with one of its own width. -/
theorem drivesResult_read {i : Instr} {k : Kind} {α : Type} {count : α → RawCount} {r : Result}
    (hk : readsKind i = some k)
    (hok : ∀ n v, DrivesResult i { status := .ok, raw := some (count n), value := some v })
    (h : r = { status := .busTransportError } ∨ r = { status := .computationError } ∨
      ∃ n v, r = { status := .ok, raw := some (count n), value := some v }) : DrivesResult i r := by
  rcases h with rfl | rfl | ⟨n, v, rfl⟩
  · exact .noReading _ hk (.inl rfl)
  · exact .noReading _ hk (.inr rfl)
  · exact hok n v

/-- Every operation that answered drove one of its records. -/
theorem exec_drivesResult {i : Instr} {s t : State} (h : exec i s = .next t) :
    ∃ r, t.result = some r ∧ DrivesResult i r := by
  rcases exec_cases h with ⟨rfl, -, rfl⟩ | ⟨v, rfl, -, rfl⟩ | ⟨k, cmd, w, hk, -, -, hw, -, -, rfl⟩ |
    ⟨r, rfl, -, hr, rfl⟩ | ⟨tIn, r, rfl, -, hr, rfl⟩ | ⟨p, rfl, rfl⟩
  case loadFailed => exact ⟨_, rfl, .load _ (by decide)⟩
  case loaded => exact ⟨_, rfl, .load _ (validityStatus_ne_computationError _)⟩
  case start =>
    rcases startConversion_cases k cmd w s with e | e <;> rw [e]
    · exact ⟨_, rfl, .started w hk (legalWait_mem hw)⟩
    · exact ⟨_, rfl, .notStarted hk⟩
  case readT => exact ⟨r, rfl, drivesResult_read (k := .T) rfl .readingT hr⟩
  case readP => exact ⟨r, rfl, drivesResult_read (k := .P) rfl (.readingP tIn) hr⟩
  case classify => exact ⟨_, rfl, .band p⟩

/-- A start reads no result, and is not CLASSIFY. -/
theorem startsKind_excludes {i : Instr} {k : Kind} (h : startsKind i = some k) :
    readsKind i = none ∧ ∀ p, i ≠ .classify p := by
  cases i with
  | load | readT | readP | classify => simp [startsKind] at h
  | startT | startP | cmdTemperature | cmdPressureOss0 | cmdPressureOss1 | cmdPressureOss2
  | cmdPressureOss3 => exact ⟨rfl, fun _ => Instr.noConfusion⟩

/-- A read starts no conversion, and is not CLASSIFY. -/
theorem readsKind_excludes {i : Instr} {k : Kind} (h : readsKind i = some k) :
    startsKind i = none ∧ ∀ p, i ≠ .classify p := by
  cases i with
  | readT | readP => exact ⟨rfl, fun _ => Instr.noConfusion⟩
  | load | classify | startT | startP | cmdTemperature | cmdPressureOss0 | cmdPressureOss1 | cmdPressureOss2
  | cmdPressureOss3 => simp [readsKind] at h

/-! ## The statements about the result record -/

/-- Settles O36: record by record of those an operation can drive. -/
theorem resultFieldsFollowStatus : Obligations.ResultFieldsFollowStatus := by
  intro i s t h
  obtain ⟨r, hr, hdrives⟩ := exec_drivesResult h
  refine ⟨r, hr, ?_⟩
  cases hdrives with
  | load st hst => simp [startsKind, readsKind]
  | started w hk hw =>
    obtain ⟨hreads, hclassify⟩ := startsKind_excludes hk
    simpa [hk, hreads, hclassify] using hw
  | notStarted hk =>
    obtain ⟨hreads, hclassify⟩ := startsKind_excludes hk
    simp [hk, hreads, hclassify]
  | noReading st hk hst =>
    obtain ⟨hstarts, hclassify⟩ := readsKind_excludes hk
    rcases hst with rfl | rfl <;> simp [hstarts, hclassify]
  | readingT n v => simp [startsKind, readsKind]
  | readingP tIn n v => simp [startsKind, readsKind]
  | band p => simp [startsKind, readsKind]

/-- Settles O46: the codes by evaluation, the band by its intervals, the statuses by the records of an operation. -/
theorem resultCodesFollowTheTables : Obligations.ResultCodesFollowTheTables := by
  refine ⟨⟨rfl, rfl, rfl, rfl⟩, fun b => ?bandBelowFive, fun s p => ⟨bandOf p, rfl, ?bandOfPressure⟩,
    fun i s t r h hr => ?statuses⟩
  case bandBelowFive => cases b <;> decide
  case bandOfPressure => unfold bandOf; split_ifs <;> rfl
  case statuses =>
    obtain ⟨r', hr', hdrives⟩ := exec_drivesResult h
    obtain rfl : r' = r := Option.some.inj (hr'.symm.trans hr)
    cases hdrives with
    | load st hst => cases st <;> simp [statusCode] at hst ⊢
    | started w hk hw => simp [statusCode]
    | notStarted hk => simp [statusCode, (startsKind_excludes hk).2]
    | noReading st hk hst => rcases hst with rfl | rfl <;> simp [statusCode, hk, (readsKind_excludes hk).2]
    | readingT n v => simp [statusCode]
    | readingP tIn n v => simp [statusCode]
    | band p => simp [statusCode]

end Sys2Proof.Machine

/-! # Proofs of the numeric statements (spec/40_numerics.md): `derive` in the document's form and in closed form, the
ranges of the coefficients, and the tolerance of a finite format -/

namespace Sys2Proof.Machine

/-! ## Two equal forms of `derive` (R113) -/

/-- The thirteen formulas with the scaling constants as the document writes them (R84, left column). -/
def documentCoefs (v : RawCal) : Coefs :=
  let c3 : NUM := 160 * (2 : Rat) ^ (-15 : Int) * v.ac3
  let c4 : NUM := (10 : Rat) ^ (-3 : Int) * (2 : Rat) ^ (-15 : Int) * v.ac4
  let b1 : NUM := 160 ^ 2 * (2 : Rat) ^ (-30 : Int) * v.vb1
  { c3 := c3
    c4 := c4
    b1 := b1
    c5 := (2 : Rat) ^ (-15 : Int) / 160 * v.ac5
    c6 := v.ac6
    mc := 2 ^ 11 / 160 ^ 2 * v.mc
    md := v.md / 160
    x0 := v.ac1
    x1 := 160 * (2 : Rat) ^ (-13 : Int) * v.ac2
    x2 := 160 ^ 2 * (2 : Rat) ^ (-25 : Int) * v.vb2
    y0 := c4 * 2 ^ 15
    y1 := c4 * c3
    y2 := c4 * b1 }

/-- The closed forms: every coefficient is an integer of the calibration over a fixed denominator. -/
def closedCoefs (v : RawCal) : Coefs where
  c3 := 5 * v.ac3 / 2 ^ 10
  c4 := v.ac4 / 32768000
  b1 := 25 * v.vb1 / 2 ^ 20
  c5 := v.ac5 / 5242880
  c6 := v.ac6
  mc := 2 * v.mc / 25
  md := v.md / 160
  x0 := v.ac1
  x1 := 5 * v.ac2 / 2 ^ 8
  x2 := 25 * v.vb2 / 2 ^ 15
  y0 := v.ac4 / 1000
  y1 := v.ac4 * v.ac3 / (2 ^ 28 * 25)
  y2 := v.ac4 * v.vb1 / (2 ^ 38 * 5)

/-- Only the scaling constants are written differently (R84). -/
theorem derive_eq_documentCoefs (v : RawCal) : derive v = documentCoefs v := by
  norm_num [derive, documentCoefs]

/-- Exact arithmetic makes the order of evaluation immaterial (R88): coefficient by coefficient, a ring identity. -/
theorem derive_eq_closedCoefs (v : RawCal) : derive v = closedCoefs v := by
  simp only [derive, closedCoefs, Coefs.mk.injEq, true_and]
  refine ⟨?c3, ?c4, ?b1, ?c5, ?mc, ?x1, ?x2, ?y0, ?y1, ?y2⟩ <;> ring

/-! ## The ranges of the coefficients -/

/-- The range of a signed register, read in `NUM` (R81). -/
theorem inS16.cast {x : Int} (h : inS16 x) : -32768 ≤ (x : NUM) ∧ (x : NUM) ≤ 32767 := by
  exact_mod_cast h

/-- The range of an unsigned register, read in `NUM` (R81). -/
theorem inU16.cast {x : Int} (h : inU16 x) : 0 ≤ (x : NUM) ∧ (x : NUM) ≤ 65535 := by
  exact_mod_cast h

/-- The range column of R113. -/
structure CoefsInRange (c : Coefs) : Prop where
  c3 : -160 ≤ c.c3 ∧ c.c3 ≤ 159.9951171875
  c4 : 0 ≤ c.c4 ∧ c.c4 ≤ 65535 / 32768000
  b1 : -0.78125 ≤ c.b1 ∧ c.b1 ≤ 819175 / 1048576
  c5 : 0 ≤ c.c5 ∧ c.c5 ≤ 65535 / 5242880
  c6 : 0 ≤ c.c6 ∧ c.c6 ≤ 65535
  mc : -2621.44 ≤ c.mc ∧ c.mc ≤ 2621.36
  md : -204.8 ≤ c.md ∧ c.md ≤ 204.79375
  x0 : -32768 ≤ c.x0 ∧ c.x0 ≤ 32767
  x1 : -640 ≤ c.x1 ∧ c.x1 ≤ 639.98046875
  x2 : -25 ≤ c.x2 ∧ c.x2 ≤ 24.999237060546875
  y0 : 0 ≤ c.y0 ∧ c.y0 ≤ 65.535

/-- A closed form with one register scales that register's range by a positive constant. -/
theorem RawInRange.coefsInRange {v : RawCal} (h : RawInRange v) : CoefsInRange (derive v) := by
  rw [derive_eq_closedCoefs]
  constructor <;> simp only [closedCoefs]
  case c3 => obtain ⟨hlo, hhi⟩ := h.ac3.cast; constructor <;> linarith
  case c4 => obtain ⟨hlo, hhi⟩ := h.ac4.cast; constructor <;> linarith
  case b1 => obtain ⟨hlo, hhi⟩ := h.vb1.cast; constructor <;> linarith
  case c5 => obtain ⟨hlo, hhi⟩ := h.ac5.cast; constructor <;> linarith
  case c6 => exact h.ac6.cast
  case mc => obtain ⟨hlo, hhi⟩ := h.mc.cast; constructor <;> linarith
  case md => obtain ⟨hlo, hhi⟩ := h.md.cast; constructor <;> linarith
  case x0 => exact h.ac1.cast
  case x1 => obtain ⟨hlo, hhi⟩ := h.ac2.cast; constructor <;> linarith
  case x2 => obtain ⟨hlo, hhi⟩ := h.vb2.cast; constructor <;> linarith
  case y0 => obtain ⟨hlo, hhi⟩ := h.ac4.cast; constructor <;> linarith

/-! ## The tolerance of a finite format (R86) -/

/-- An exact value is within every tolerance, that of a zero coefficient included. -/
theorem withinTolerance_self (x : NUM) : withinTolerance x x := by
  unfold withinTolerance
  split_ifs with hzero
  · exact hzero
  · rw [sub_self, abs_zero]; positivity

/-! ## The statements -/

/-- Settles O17: the two forms of `derive`, field by field, and the range of each closed form. -/
theorem coefficientsFollowTheFormulas : Obligations.CoefficientsFollowTheFormulas := by
  intro v
  have hdoc := derive_eq_documentCoefs v
  have hclosed := derive_eq_closedCoefs v
  refine ⟨⟨congrArg Coefs.c3 hdoc, congrArg Coefs.c3 hclosed⟩, ⟨congrArg Coefs.c4 hdoc, congrArg Coefs.c4 hclosed⟩,
    ⟨congrArg Coefs.b1 hdoc, congrArg Coefs.b1 hclosed⟩, ⟨congrArg Coefs.c5 hdoc, congrArg Coefs.c5 hclosed⟩, rfl,
    ⟨congrArg Coefs.mc hdoc, congrArg Coefs.mc hclosed⟩, rfl, rfl,
    ⟨congrArg Coefs.x1 hdoc, congrArg Coefs.x1 hclosed⟩, ⟨congrArg Coefs.x2 hdoc, congrArg Coefs.x2 hclosed⟩,
    ⟨?_, congrArg Coefs.y0 hclosed⟩, ⟨rfl, congrArg Coefs.y1 hclosed⟩, ⟨rfl, congrArg Coefs.y2 hclosed⟩, fun h => ?_⟩
  · rw [hdoc]; rfl
  · obtain ⟨hc3, hc4, hb1, hc5, hc6, hmc, hmd, hx0, hx1, hx2, hy0⟩ := h.coefsInRange
    exact ⟨hc3, hc4, hb1, hc5, hc6, hmc, hmd, hx0, hx1, hx2, hy0⟩

/-- Settles O19: what LOAD stores is the closed form itself, and an exact value is within the tolerance. -/
theorem storedCoefficientsMeetTolerance : Obligations.StoredCoefficientsMeetTolerance := by
  intro v
  simp only [storedCoefs_eq, derive_eq_closedCoefs, closedCoefs]
  norm_num [withinTolerance_self]

end Sys2Proof.Machine

/-! # Proofs of the Register Accessor statements (spec/41_register_accessor.md): a completed read, and the batch write -/

namespace Sys2Proof.Machine

/-! ## A completed read (R101 to R103) -/

/-- `sext_16` of the big-endian word of two bytes, written out (R83). -/
theorem i16be_eq_ite (hi lo : Byte) :
    i16be hi lo = if hi.toNat * 256 + lo.toNat < 32768 then (hi.toNat * 256 + lo.toNat : Int)
      else (hi.toNat * 256 + lo.toNat : Int) - 65536 := by
  rw [i16be, sext16, u16be]
  push_cast
  rfl

/-- A completed read is one transaction, which the history notes with its bytes in bus order. -/
theorem memRead_completed {addr : Addr} {n : Nat} {v : Vector Byte n} {b : Bus} (h : readAnswer addr n b = some v) :
    memRead addr n b = (some v, busRecord (.read addr n) (.ok v.toList) b) := by
  rw [memRead, h, readOutcome]

theorem rdI16_completed {addr : Addr} {hi lo : Byte} {b : Bus} (h : readAnswer addr 2 b = some #v[hi, lo]) :
    rdI16 addr b = (some (i16be hi lo), busRecord (.read addr 2) (.ok [hi, lo]) b) := by
  rw [rdI16, memRead_completed h]
  rfl

theorem rdU16_completed {addr : Addr} {hi lo : Byte} {b : Bus} (h : readAnswer addr 2 b = some #v[hi, lo]) :
    rdU16 addr b = (some (u16be hi lo), busRecord (.read addr 2) (.ok [hi, lo]) b) := by
  rw [rdU16, memRead_completed h]
  rfl

/-! ## The addresses of a batch write (R105) -/

/-- A batch write touches one address a byte. -/
theorem length_touchedAddrs_write (addr : Addr) (bytes : List Byte) :
    (touchedAddrs (.write addr bytes)).length = bytes.length := by
  rw [touchedAddrs, List.length_map, List.length_range]

/-- Byte `j` of a batch write goes to `addr + j`. -/
theorem getElem_touchedAddrs_write {addr : Addr} {bytes : List Byte} {j : Nat}
    (h : j < (touchedAddrs (.write addr bytes)).length) :
    (touchedAddrs (.write addr bytes))[j] = addr.toNat + j := by
  simp only [touchedAddrs, List.getElem_map, List.getElem_range]

/-! ## The statements -/

/-- Settles O13: a completed read gives `sext_16` of its word, a failed one gives no value. -/
theorem readSigned16DecodesTwoBytes : Obligations.ReadSigned16DecodesTwoBytes := by
  refine ⟨fun addr hi lo b h => ?completed, fun addr b h => congrArg Prod.fst (rdI16_failed h)⟩
  rw [rdI16_completed h, i16be_eq_ite]
  exact ⟨_, rfl, busRecord_trace _ _ _⟩

/-- Settles O14: a completed read gives the word or the bytes, a failed one gives no value. -/
theorem readUnsignedGivesBytes : Obligations.ReadUnsignedGivesBytes :=
  ⟨fun _ _ _ _ h => ⟨_, rdU16_completed h, busRecord_trace _ _ _⟩,
    fun _ _ _ _ h => ⟨_, memRead_completed h, busRecord_trace _ _ _⟩,
    fun _ _ h => congrArg Prod.fst (rdU16_failed h),
    fun _ _ _ h => congrArg Prod.fst (memRead_failed h)⟩

/-- Settles O16: one write transaction with the bus's verdict, over consecutive addresses. -/
theorem batchWriteAutoIncrements : Obligations.BatchWriteAutoIncrements :=
  fun addr bytes _ => ⟨⟨_, rfl, busRecord_trace _ _ _⟩, length_touchedAddrs_write addr bytes,
    fun _ h => getElem_touchedAddrs_write h⟩

end Sys2Proof.Machine

/-! # Proofs of the Calibration Loader statements (spec/42_calibration_loader.md): what the eleven reads of LOAD make of the
listed answers, LOAD's two outcomes, and the calibrations under which every reading fails -/

namespace Sys2Proof.Machine

/-! ## One calibration register and its listed answer (R42, R70) -/

/-- The answer that brings a register its two bytes. -/
def pairAnswer (p : Byte × Byte) : Answer := .ok [p.1, p.2]

/-- The read of a calibration register (R111). -/
def registerRequest (r : Addr × Bool) : Request := .read r.1 2

/-- The finished read of a calibration register, answered with its two bytes. -/
def registerTransaction (r : Addr × Bool) (p : Byte × Byte) : Transaction :=
  ⟨0x77#8, registerRequest r, pairAnswer p⟩

/-- The integer a calibration register takes from its two bytes. -/
def registerValue (r : Addr × Bool) (p : Byte × Byte) : Int := calValue r.2 p.1 p.2

/-- `rd` is the read of the register `r`: two listed bytes give the register's value (as `value` reads it), a listed
failure gives none, and both are one transaction. -/
structure ReadsRegister {α : Type} (rd : Bus → Option α × Bus) (r : Addr × Bool) (value : α → Int) : Prop where
  completed : ∀ {b : Bus} {p : Byte × Byte} {rest : List Answer}, b.answers = pairAnswer p :: rest →
    ∃ x, rd b = (some x, busRecord (registerRequest r) (pairAnswer p) b) ∧ value x = registerValue r p
  failed : ∀ {b : Bus} {rest : List Answer}, b.answers = .failed :: rest →
    rd b = (none, busRecord (registerRequest r) .failed b)

theorem readsRegister_rdI16 (a : Addr) : ReadsRegister (rdI16 a) (a, true) id where
  completed h := ⟨_, rdI16_completed (readAnswer_two h), (calValue_signed _ _).symm⟩
  failed h := rdI16_failed (readAnswer_failed h)

theorem readsRegister_rdU16 (a : Addr) : ReadsRegister (rdU16 a) (a, false) Nat.cast where
  completed h := ⟨_, rdU16_completed (readAnswer_two h), (calValue_unsigned _ _).symm⟩
  failed h := rdU16_failed (readAnswer_failed h)

/-! ## A sequence of register reads and its listed answers (R111) -/

/-- `f` reads the registers `regs` in order, with the values `before` already read: if every read is answered with two
bytes, the registers hold their values; it stops at the first listed failure. -/
structure ReadsRegisters (f : Bus → Option RawCal × Bus) (before : List Int) (regs : List (Addr × Bool)) : Prop where
  completes : ∀ {b : Bus} {pairs : List (Byte × Byte)} {rest : List Answer},
    pairs.length = regs.length → b.answers = pairs.map pairAnswer ++ rest →
    ∃ v, (f b).1 = some v ∧ rawList v = before ++ List.zipWith registerValue regs pairs ∧
      (f b).2.trace = b.trace ++ List.zipWith registerTransaction regs pairs ∧ (f b).2.answers = rest
  stops : ∀ {b : Bus} {pairs : List (Byte × Byte)} {rest : List Answer},
    pairs.length < regs.length → b.answers = pairs.map pairAnswer ++ .failed :: rest →
    (f b).1 = none ∧
      (f b).2.trace.map Transaction.request =
        b.trace.map Transaction.request ++ (regs.take (pairs.length + 1)).map registerRequest ∧
      (f b).2.answers = rest

/-- The end of the sequence: no register is left, so no read can fail. -/
theorem ReadsRegisters.done {v : RawCal} {before : List Int} (h : rawList v = before) :
    ReadsRegisters (fun b => (some v, b)) before [] where
  completes hlen hans := by
    obtain rfl := List.length_eq_zero_iff.mp hlen
    exact ⟨v, rfl, by simpa using h, by simp, hans⟩
  stops hlen := absurd hlen (Nat.not_lt_zero _)

/-- One more register in front: the first listed answer is its own, the others belong to the rest of the sequence. -/
theorem ReadsRegisters.cons {α : Type} {rd : Bus → Option α × Bus} {r : Addr × Bool} {value : α → Int}
    {g : α → Bus → Option RawCal × Bus} {before : List Int} {regs : List (Addr × Bool)}
    (hrd : ReadsRegister rd r value) (hg : ∀ x, ReadsRegisters (g x) (before ++ [value x]) regs) :
    ReadsRegisters (readThen rd g) before (r :: regs) where
  completes {b pairs rest} hlen hans := by
    cases pairs with
    | nil => cases hlen
    | cons p pairs =>
      obtain ⟨x, hread, hvalue⟩ := hrd.completed hans
      have hnext : (busRecord (registerRequest r) (pairAnswer p) b).answers = pairs.map pairAnswer ++ rest := by
        simp [hans]
      obtain ⟨v, hv, hraw, htrace, hrest⟩ := (hg x).completes (Nat.succ.inj hlen) hnext
      rw [readThen_some (congrArg Prod.fst hread), hread]
      exact ⟨v, hv, by simpa [hvalue] using hraw, by simpa [registerTransaction] using htrace, hrest⟩
  stops {b pairs rest} hlen hans := by
    cases pairs with
    | nil =>
      have hread := hrd.failed hans
      rw [readThen_none (congrArg Prod.fst hread), hread]
      exact ⟨rfl, by simp, by simp [hans]⟩
    | cons p pairs =>
      obtain ⟨x, hread, -⟩ := hrd.completed hans
      have hnext : (busRecord (registerRequest r) (pairAnswer p) b).answers =
          pairs.map pairAnswer ++ .failed :: rest := by
        simp [hans]
      obtain ⟨hnone, htrace, hrest⟩ := (hg x).stops (Nat.lt_of_succ_lt_succ hlen) hnext
      rw [readThen_some (congrArg Prod.fst hread), hread]
      exact ⟨hnone, by simpa using htrace, hrest⟩

/-- The reads of LOAD are those of the calibration registers, in the order of R111. -/
theorem readsRegisters_readCalibration : ReadsRegisters readCalibration [] calRegisters :=
  .cons (readsRegister_rdI16 _) fun _ => .cons (readsRegister_rdI16 _) fun _ =>
  .cons (readsRegister_rdI16 _) fun _ => .cons (readsRegister_rdU16 _) fun _ =>
  .cons (readsRegister_rdU16 _) fun _ => .cons (readsRegister_rdU16 _) fun _ =>
  .cons (readsRegister_rdI16 _) fun _ => .cons (readsRegister_rdI16 _) fun _ =>
  .cons (readsRegister_rdI16 _) fun _ => .cons (readsRegister_rdI16 _) fun _ =>
  .cons (readsRegister_rdI16 _) fun _ => .done rfl

/-- The status of a completed LOAD is about every register of `RAW` (R115, R117). -/
theorem validityStatus_allNonzero (v : RawCal) :
    validityStatus (allNonzero v) = if ∀ x ∈ rawList v, x ≠ 0 then .ok else .calibrationInvalid := by
  simp only [allNonzero_eq, validityStatus, decide_eq_true_eq]

/-! ## Zero divisors from the calibration (R119, R135, R143) -/

/-- Every coefficient of the divisor `y` has the factor AC4. -/
theorem pressY_derive_of_ac4_zero {v : RawCal} (h : v.ac4 = 0) (s : NUM) : pressY (derive v) s = 0 := by
  simp [pressY, coefValue, derive, h]

/-- With AC5 = 0 the term `a` is 0, and with MD = 0 nothing is added to it. -/
theorem tempDivisor_derive_of_zero {v : RawCal} (hac5 : v.ac5 = 0) (hmd : v.md = 0) (tu : Nat) :
    tempDivisor (derive v) tu = 0 := by
  simp [tempDivisor, tempA, coefValue, derive, hac5, hmd]

/-- A completed read of READ_P with `y = 0` raises ComputationError (R143). -/
theorem finishReadP_zeroDivisor {c : Coefs} {t : NUM} (h : pressY c (pressS t) = 0) (bytes : Vector Byte 3)
    (s : State) : finishReadP c t (some bytes) s = raiseError .computationError s :=
  if_pos h

/-- A completed read of READ_T with a zero divisor raises ComputationError (R135). -/
theorem finishReadT_zeroDivisor {c : Coefs} {tu : Nat} (h : tempDivisor c tu = 0) (s : State) :
    finishReadT c (some tu) s = raiseError .computationError s :=
  if_pos h

/-- Under the invariant the coefficients are those of the registers that were loaded (R24, R33). -/
theorem Consistent.calibration_of_raw {s : State} {v : RawCal} (h : Consistent s) (hv : s.raw = some v) :
    s.calLoaded = true ∧ s.coef = some (derive v) :=
  ⟨by rw [h.loaded, hv]; rfl, by rw [h.derived, hv]; rfl⟩

/-! ## The statements -/

/-- Settles O20: the eleven answers complete the reads, and LOAD commits what they gave. -/
theorem loadCommitsWhatTheBusReturned : Obligations.LoadCommitsWhatTheBusReturned := by
  intro s pairs rest hlen hans
  obtain ⟨v, hv, hraw, htrace, hrest⟩ := readsRegisters_readCalibration.completes hlen hans
  exact ⟨_, v, execLoad_loaded hv, hraw, rfl, rfl, rfl, allNonzero_eq v, by rw [validityStatus_allNonzero],
    htrace, hrest, rfl⟩

/-- Settles O21: the first listed failure stops the reads, and LOAD reports it. -/
theorem loadStopsAtFirstFailedRead : Obligations.LoadStopsAtFirstFailedRead := by
  intro s pairs rest hlen hans
  obtain ⟨hnone, hrequests, hrest⟩ := readsRegisters_readCalibration.stops hlen hans
  exact ⟨_, execLoad_failed hnone, rfl, hrequests, hrest, rfl⟩

/-- Settles O22: either a read failed, or the whole calibration is committed with the status of its validity. -/
theorem loadCompletesInEveryState : Obligations.LoadCompletesInEveryState := by
  intro s
  cases h : (readCalibration s.bus).1 with
  | none => exact ⟨_, execLoad_failed h, fun _ => ⟨rfl, rfl⟩, nofun⟩
  | some v =>
    refine ⟨_, execLoad_loaded h, nofun, fun w hw => ?_⟩
    obtain rfl := Option.some.inj hw
    rw [validityStatus_allNonzero, allNonzero_eq]
    refine ⟨fun ⟨x, hx, hzero⟩ => ?someZero, fun hall => ?noneZero, rfl⟩
    case someZero =>
      have hnot : ¬ ∀ x ∈ rawList v, x ≠ 0 := fun hall => hall x hx hzero
      exact ⟨by rw [if_neg hnot], decide_eq_false hnot⟩
    case noneZero => exact ⟨by rw [if_pos hall], decide_eq_true hall⟩

/-- Settles O32: both divisors are zero by the calibration alone, whatever the read brought. -/
theorem zeroCalibrationForcesComputationError : Obligations.ZeroCalibrationForcesComputationError := by
  intro s v hs hv
  obtain ⟨hloaded, hcoef⟩ := hs.calibration_of_raw hv
  refine ⟨fun hac4 hidle tIn bytes hread => ?pressure, fun hac5 hmd hidle bytes hread => ?temperature⟩
  case pressure =>
    have hbytes : (rdBytes resultAddr 3 s.bus).1 = some bytes := hread
    refine ⟨_, execReadP_runs tIn hloaded hidle hcoef, ?_⟩
    rw [hbytes, finishReadP_zeroDivisor (pressY_derive_of_ac4_zero hac4 _), raiseError_result]
  case temperature =>
    have hcount : (rdU16 resultAddr s.bus).1 = some (u16be bytes[0] bytes[1]) := congrArg (Option.map _) hread
    refine ⟨_, execReadT_runs hloaded hidle hcoef, ?_⟩
    rw [hcount, finishReadT_zeroDivisor (tempDivisor_derive_of_zero hac5 hmd _), raiseError_result]

end Sys2Proof.Machine

/-! # Proofs of the Conversion Sequencer statements (spec/43_conversion_sequencer.md): the two readings and their closed
forms, the transition table of the protocol states, and the environment step `elapse(k)` -/

namespace Sys2Proof.Machine

/-! ## The three ends of READ_T and READ_P (R133, R140)

An end without a reading for want of a divisor is `finishReadT_zeroDivisor`, `finishReadP_zeroDivisor`. -/

/-- The end of READ_T touches the result record alone. -/
theorem finishReadT_frame (c : Coefs) (tu : Option Nat) (s : State) :
    finishReadT c tu s = { s with result := (finishReadT c tu s).result } := by
  obtain ⟨r, e, -⟩ := finishReadT_eq c tu s
  rw [e]

/-- The end of READ_P touches the result record alone. -/
theorem finishReadP_frame (c : Coefs) (t : NUM) (bytes : Option (Vector Byte 3)) (s : State) :
    finishReadP c t bytes s = { s with result := (finishReadP c t bytes s).result } := by
  obtain ⟨r, e, -⟩ := finishReadP_eq c t bytes s
  rw [e]

/-- A completed read of READ_T with a divisor other than zero gives the temperature (R133). -/
theorem finishReadT_reading {c : Coefs} {tu : Nat} (h : tempDivisor c tu ≠ 0) (s : State) :
    finishReadT c (some tu) s = finish
      { status := .ok, raw := some (.tu (BitVec.ofNat 16 tu)), value := some (temperature c tu) } s :=
  if_neg h

/-- A completed read of READ_P with `y` other than zero gives the pressure (R140). -/
theorem finishReadP_reading {c : Coefs} {t : NUM} (h : pressY c (pressS t) ≠ 0) (msb lsb xlsb : Byte) (s : State) :
    finishReadP c t (some #v[msb, lsb, xlsb]) s = finish
      { status := .ok, raw := some (.up24 (BitVec.ofNat 24 (up24be msb lsb xlsb))),
        value := some (pressure c t (up24be msb lsb xlsb)) } s :=
  if_neg h

/-! ## The formulas as the document writes them (R133, R140) -/

theorem tempA_eq (c : Coefs) (tu : Nat) : tempA c tu = c.c5 * (tu - c.c6) := rfl

theorem tempDivisor_eq (c : Coefs) (tu : Nat) : tempDivisor c tu = tempA c tu + c.md := rfl

theorem temperature_eq (c : Coefs) (tu : Nat) :
    temperature c tu = tempA c tu + c.mc / tempDivisor c tu := rfl

theorem pressX_eq (c : Coefs) (s : NUM) : pressX c s = c.x2 * s ^ 2 + c.x1 * s + c.x0 := by
  simp only [pressX, coefValue]
  ring

theorem pressY_eq (c : Coefs) (s : NUM) : pressY c s = c.y2 * s ^ 2 + c.y1 * s + c.y0 := by
  simp only [pressY, coefValue]
  ring

/-- The coefficients of the last polynomial are the hardwired ones, whatever the calibration (R114). -/
theorem pressP_eq (c : Coefs) (z : NUM) :
    pressP c z = 37975 / 8589934592 * z ^ 2 + 1041219 / 1048576 * z + 3783 / 1600 := by
  simp only [pressP, coefValue, coefP0_eq, coefP1_eq, coefP2_eq]
  ring

/-- The pressure as the last polynomial of `z`, with the three intermediate values written out (R140, R142). -/
theorem pressure_eq (c : Coefs) (t : NUM) (up24 : Nat) :
    pressure c t up24 = pressP c (((up24 : NUM) / 256 - pressX c (t - 25)) / pressY c (t - 25)) := rfl

/-! ## The closed forms of the formulas (R136, R144) -/

/-- `a` is the integer `N = AC5·(tu − AC6)` over a fixed denominator (R136). -/
theorem tempA_derive (v : RawCal) (tu : Nat) :
    tempA (derive v) tu = (v.ac5 * (tu - v.ac6) : Int) / 5242880 := by
  simp only [tempA_eq, derive_eq_closedCoefs, closedCoefs]
  push_cast
  ring

/-- The divisor is the integer `D = N + 32768·MD` over the same denominator (R136). -/
theorem tempDivisor_derive (v : RawCal) (tu : Nat) :
    tempDivisor (derive v) tu = (v.ac5 * (tu - v.ac6) + 32768 * v.md : Int) / 5242880 := by
  rw [tempDivisor_eq, tempA_derive, derive_eq_closedCoefs, closedCoefs]
  push_cast
  ring

/-- `y` has the factor AC4, and the other factor is a polynomial with the signed registers (R144). -/
theorem pressY_derive (v : RawCal) (s : NUM) :
    pressY (derive v) s = v.ac4 * (25 * v.vb1 * s ^ 2 + 5120 * v.ac3 * s + 2 ^ 35) / (32768000 * 2 ^ 20) := by
  simp only [pressY_eq, derive_eq_closedCoefs, closedCoefs]
  ring

theorem pressX_derive (v : RawCal) (s : NUM) :
    pressX (derive v) s = 25 * v.vb2 * s ^ 2 / 32768 + 5 * v.ac2 * s / 256 + v.ac1 := by
  simp only [pressX_eq, derive_eq_closedCoefs, closedCoefs]
  ring

/-! ## The transition table (R146) -/

/-- The row of a start: an accepted write makes its own kind ConversionPending, a failed one nothing (R131, R150). -/
theorem seqAfter_start {i : Instr} {k : Kind} (h : startsKind i = some k) (st : Status) (k' : Kind)
    (prev : SeqState) : seqAfter i st k' prev = if k' = k ∧ st = .ok then .conversionPending else prev := by
  have hreads : readsKind i ≠ some k' := by simp [(startsKind_excludes h).1]
  rw [seqAfter, h, if_neg hreads]
  by_cases hk : k' = k
  · simp [hk]
  · simp [hk, Ne.symm hk]

/-- No row of the table leads to ResultReady. -/
theorem eq_resultReady_of_seqAfter {i : Instr} {st : Status} {k : Kind} {prev : SeqState}
    (h : seqAfter i st k prev = .resultReady) : prev = .resultReady := by
  unfold seqAfter at h
  split_ifs at h <;> exact h

/-- From `s`, the operation `i` ended in `t` with a result record, and both protocol states followed the table. -/
def FollowsTable (i : Instr) (s t : State) : Prop :=
  ∃ r, t.result = some r ∧ ∀ k, seqOf t k = seqAfter i r.status k (seqOf s k)

/-- The start procedure follows the row of a start, accepted or failed. -/
theorem startConversion_followsTable {i : Instr} {k : Kind} (hk : startsKind i = some k) (cmd : Byte) (w : Nat)
    (s : State) : FollowsTable i s (startConversion k cmd w s) := by
  rcases startConversion_cases k cmd w s with accepted | failed
  · rw [accepted]
    refine ⟨_, rfl, fun k' => ?_⟩
    rw [seqAfter_start hk]
    cases k <;> cases k' <;> rfl
  · rw [failed]
    refine ⟨_, rfl, fun k' => ?_⟩
    rw [seqAfter_start hk, if_neg (by simp)]
    cases k' <;> rfl

/-- Every operation that answered followed the table. -/
theorem exec_followsTable {i : Instr} {s t : State} (h : exec i s = .next t) : FollowsTable i s t := by
  rcases exec_cases h with ⟨rfl, -, rfl⟩ | ⟨v, rfl, -, rfl⟩ | ⟨k, cmd, w, hk, -, -, -, -, -, rfl⟩ |
    ⟨r, rfl, -, -, rfl⟩ | ⟨tIn, r, rfl, -, -, rfl⟩ | ⟨p, rfl, rfl⟩
  case start => exact startConversion_followsTable hk cmd w s
  case readT | readP =>
    refine ⟨r, rfl, fun k => ?_⟩
    cases k <;> rfl
  case loadFailed | loaded | classify =>
    refine ⟨_, rfl, fun k => ?_⟩
    cases k <;> rfl

/-! ## The environment step (R148, R196) -/

/-- `elapse(k)` while the conversion is pending (R148). -/
theorem runElapse_enabled {k : Kind} {s : State} (h : seqOf s k = .conversionPending) :
    runElapse k s = .next (setSeq k .resultReady s) :=
  if_pos h

/-- A kind whose protocol state an update of `seq[k']` changed is the kind `k'`. -/
theorem eq_of_seqOf_setSeq_ne {k k' : Kind} {v : SeqState} {s : State}
    (h : seqOf (setSeq k' v s) k ≠ seqOf s k) : k = k' := by
  by_contra hne
  exact h (seqOf_setSeq_of_ne hne v s)

/-- The one input that makes the result of kind `k` ready is the host's wait for it, while the conversion is pending:
a LOAD, a reset or any other operation never does. -/
theorem runInput_makesReady {input : HostInput} {s t : State} {k : Kind} (h : runInput input s = .next t)
    (hs : ¬ waitHonoured k s) (ht : waitHonoured k t) :
    seqOf s k = .conversionPending ∧ (input = .elapse k ∨ ∃ d, input = .wait k d) := by
  have hne : seqOf t k ≠ seqOf s k := fun e => hs (e.symm.trans ht)
  cases input with
  | present e =>
    obtain ⟨i, -, hi⟩ := runPresented_next h
    obtain ⟨r, -, hseq⟩ := exec_followsTable hi
    exact absurd (eq_resultReady_of_seqAfter ((hseq k).symm.trans ht)) hs
  | elapse k' =>
    obtain ⟨hp, rfl⟩ := runElapse_next h
    obtain rfl := eq_of_seqOf_setSeq_ne hne
    exact ⟨hp, .inl rfl⟩
  | wait k' d =>
    obtain rfl := Host.Outcome.next.inj h
    rcases runWait_cases k' d s with ⟨hp, e⟩ | e <;> rw [e] at hne
    · obtain rfl := eq_of_seqOf_setSeq_ne hne
      exact ⟨hp, .inr ⟨d, rfl⟩⟩
    · exact absurd rfl hne
  | reset =>
    obtain rfl := Host.Outcome.next.inj h
    cases k <;> cases ht
  | presentDuring e => cases h

/-! ## A read and its own protocol state (R152) -/

/-- The refusals of kind `k` do not look at `seq[k]` (R151, R152). -/
theorem unlessRefused_setSeq_same (k : Kind) (v : SeqState) (s : State) (run : Step) :
    unlessRefused k (setSeq k v s) run = unlessRefused k s run := by
  cases k <;> rfl

/-! ## The statements -/

/-- Settles O23: START_T is the start procedure with the fixed command and wait. -/
theorem startTemperatureWritesCommand : Obligations.StartTemperatureWritesCommand := by
  intro s hl hp
  obtain ⟨t, e, h⟩ := unlessRefused_start_runs (k := .T) (cmd := 0x2E#8) (w := 5) hl hp
  refine ⟨t, e, fun ha => ?accepted, fun hf => ?failed, h.frame⟩
  case accepted =>
    obtain ⟨hseq, hresult, hwait⟩ := h.accepted ha
    exact ⟨hseq, hresult, hwait, h.acceptedTrace ha⟩
  case failed =>
    obtain ⟨hseq, hresult, hwait⟩ := h.failed hf
    exact ⟨hseq, hresult, hwait, h.failedTrace hf⟩

/-- Settles O28: READ_T runs to one of its three ends, and each touches `seq[T]`, the result and the bus alone. -/
theorem readTemperatureFollowsTheFormula : Obligations.ReadTemperatureFollowsTheFormula := by
  intro s c hl hp hc
  refine ⟨_, execReadT_runs hl hp hc, ?idle, ?frame, fun hfail => ?failed, fun hi lo tu a hread htu ha => ?completed⟩
  case idle => rw [finishReadT_frame]; rfl
  case frame => rw [finishReadT_frame]; rfl
  case failed =>
    rw [rdU16_failed (addr := resultAddr) hfail]
    exact ⟨rfl, busRecord_trace _ _ _⟩
  case completed =>
    rw [rdU16_completed (addr := resultAddr) hread]
    obtain rfl : tu = u16be hi lo := htu
    obtain rfl : a = tempA c (u16be hi lo) := ha
    rw [← tempDivisor_eq, ← temperature_eq]
    refine ⟨?trace, fun hzero => ?noReading, fun hdivisor => ?reading⟩
    case trace => rw [finishReadT_frame]; exact busRecord_trace _ _ _
    case noReading => rw [finishReadT_zeroDivisor hzero, raiseError_result]
    case reading => rw [finishReadT_reading hdivisor, finish_result]

/-- Settles O29: `a` and the divisor are integers over one denominator, and the temperature their quotient form. -/
theorem temperatureClosedForm : Obligations.TemperatureClosedForm := by
  intro v tu n d hn hd
  have hterm : tempA (derive v) tu = n / 5242880 := hn ▸ tempA_derive v tu
  have hdivisor : tempDivisor (derive v) tu = d / 5242880 := by rw [hd, hn, tempDivisor_derive]
  refine ⟨hterm, hdivisor, ?zero, fun hne => ?temperature⟩
  case zero => rw [hdivisor, div_eq_zero_iff, or_iff_left (by norm_num), Int.cast_eq_zero]
  case temperature =>
    have hne' : (d : NUM) ≠ 0 := Int.cast_ne_zero.mpr hne
    rw [temperature_eq, hdivisor, hterm, derive_eq_closedCoefs, closedCoefs]
    field_simp
    ring

/-- Settles O30: READ_P runs to one of its three ends, and each touches `seq[P]`, the result and the bus alone. -/
theorem readPressureFollowsTheFormula : Obligations.ReadPressureFollowsTheFormula := by
  intro s c tIn hl ht hc
  refine ⟨_, execReadP_runs tIn hl ht hc, ?idle, ?frame, fun hfail => ?failed,
    fun msb lsb xlsb up24 sT x y z hread hup hsT hx hy hz => ?completed⟩
  case idle => rw [finishReadP_frame]; rfl
  case frame => rw [finishReadP_frame]; rfl
  case failed =>
    rw [rdBytes, memRead_failed (addr := resultAddr) hfail]
    exact ⟨rfl, busRecord_trace _ _ _⟩
  case completed =>
    rw [rdBytes, memRead_completed (addr := resultAddr) hread]
    obtain rfl : up24 = up24be msb lsb xlsb := hup
    subst hsT
    rw [← pressX_eq] at hx
    rw [← pressY_eq] at hy
    subst hx hy
    refine ⟨?trace, fun hzero => ?noReading, fun hdivisor => ?reading⟩
    case trace => rw [finishReadP_frame]; exact busRecord_trace _ _ _
    case noReading => rw [finishReadP_zeroDivisor hzero, raiseError_result]
    case reading => rw [finishReadP_reading hdivisor, finish_result, pressure_eq, ← hz, pressP_eq]

/-- Settles O31: ring identities of the polynomials, and `y` is a product whose factors decide about its zeros. -/
theorem pressureClosedForms : Obligations.PressureClosedForms := by
  intro v s z
  refine ⟨pressX_derive v s, pressY_derive v s, ?p, ?xHorner, ?yHorner, ?pHorner, ?zero⟩
  case p => rw [pressP_eq]; ring
  case xHorner => rw [pressX_eq]; ring
  case yHorner => rw [pressY_eq]; ring
  case pHorner => simp only [pressP, coefValue]; ring
  case zero => rw [pressY_derive, div_eq_zero_iff, or_iff_left (by norm_num), mul_eq_zero, Int.cast_eq_zero]

/-- Settles O34: by the cases of an operation, each with its row of the table. -/
theorem protocolFollowsTransitionTable : Obligations.ProtocolFollowsTransitionTable :=
  fun _ _ _ h => exec_followsTable h

/-- Settles O37: of the host's inputs only the two waits lead to ResultReady, and without an input nothing changes. -/
theorem onlyTheHostsWaitMakesResultReady : Obligations.OnlyTheHostsWaitMakesResultReady := by
  intro s t k h hs ht
  cases hinputs : s.inputs with
  | nil =>
    rw [step_idle hinputs] at h
    exact absurd (Host.Outcome.next.inj h ▸ ht) hs
  | cons input rest =>
    rw [step_input hinputs] at h
    obtain ⟨hp, hinput⟩ := runInput_makesReady h (by simpa [waitHonoured] using hs) ht
    refine ⟨by simpa using hp, ?_⟩
    rcases hinput with rfl | ⟨d, rfl⟩
    · exact .inl ⟨rest, rfl⟩
    · exact .inr ⟨d, rest, rfl⟩

/-- Settles O9: the step is `elapse(k)`, and a step that answers shows that it was enabled. -/
theorem elapseMakesResultReady : Obligations.ElapseMakesResultReady := by
  intro s k rest hs
  rw [step_input hs]
  refine ⟨fun hp => ?enabled, fun hn t h => hn (by simpa using (runElapse_next h).1)⟩
  refine (runElapse_enabled (by simpa using hp)).trans ?_
  cases k <;> rfl

/-- Settles O40: neither the refusals of a read nor its run, which overwrites `seq[k]`, look at `seq[k]`. -/
theorem readsIgnoreTheirOwnProtocolState : Obligations.ReadsIgnoreTheirOwnProtocolState :=
  fun s q _ => ⟨unlessRefused_setSeq_same .T q s _, unlessRefused_setSeq_same .P q s _⟩

end Sys2Proof.Machine

/-! # Proof of the statement about the Classifier (spec/44_classifier.md) -/

namespace Sys2Proof.Machine

/-- The interval of pressures that the boundary table of R160 gives a band. -/
def InBand (p : NUM) : Band → Prop
  | .veryLow => p < 950
  | .low => 950 ≤ p ∧ p < 990
  | .normal => 990 ≤ p ∧ p < 1031
  | .high => 1031 ≤ p ∧ p < 1051
  | .veryHigh => 1051 ≤ p

/-- No gaps (R161): a comparison of `bandOf` that failed is the lower bound of the interval above it. -/
theorem inBand_bandOf (p : NUM) : InBand p (bandOf p) := by
  unfold bandOf
  split_ifs with h950 h990 h1031 h1051
  · exact h950
  · exact ⟨not_lt.mp h950, h990⟩
  · exact ⟨not_lt.mp h990, h1031⟩
  · exact ⟨not_lt.mp h1031, h1051⟩
  · exact not_lt.mp h1051

/-- No overlaps (R161): the lower bound of an interval fails the comparisons for every band below it. -/
theorem bandOf_eq_of_inBand {p : NUM} {b : Band} (h : InBand p b) : bandOf p = b := by
  unfold bandOf
  cases b with
  | veryLow => exact if_pos h
  | low =>
    obtain ⟨hlo, hhi⟩ := h
    rw [if_neg (by linarith), if_pos hhi]
  | normal =>
    obtain ⟨hlo, hhi⟩ := h
    rw [if_neg (by linarith), if_neg (by linarith), if_pos hhi]
  | high =>
    obtain ⟨hlo, hhi⟩ := h
    rw [if_neg (by linarith), if_neg (by linarith), if_neg (by linarith), if_pos hhi]
  | veryHigh =>
    have hlo : 1051 ≤ p := h
    rw [if_neg (by linarith), if_neg (by linarith), if_neg (by linarith), if_neg (by linarith)]

/-- A band is the one CLASSIFY gives exactly for the pressures of its interval (R160, R161). -/
theorem bandOf_eq_iff_inBand (p : NUM) (b : Band) : bandOf p = b ↔ InBand p b :=
  ⟨fun h => h ▸ inBand_bandOf p, bandOf_eq_of_inBand⟩

/-- Settles O33: the intervals leave no gap and do not overlap, so `bandOf` picks the only one that holds the
pressure. -/
theorem classifyGivesTheBand : Obligations.ClassifyGivesTheBand :=
  fun _ p => ⟨bandOf p, rfl, bandOf_eq_iff_inBand p .veryLow, bandOf_eq_iff_inBand p .low,
    bandOf_eq_iff_inBand p .normal, bandOf_eq_iff_inBand p .high, bandOf_eq_iff_inBand p .veryHigh⟩

end Sys2Proof.Machine

/-! # Proof of the statement about exceptions (spec/60_exceptions.md): what is not refused runs -/

namespace Sys2Proof.Machine

/-- A loaded block holds coefficients (R28, R33). -/
theorem Consistent.coef_of_loaded {s : State} (h : Consistent s) (hl : s.calLoaded = true) :
    ∃ c, s.coef = some c := by
  obtain ⟨v, hv⟩ := Option.isSome_iff_exists.mp (h.loaded.symm.trans hl)
  exact ⟨_, (h.calibration_of_raw hv).2⟩

/-- Every operation that starts a conversion runs where it is not refused (R151, R152). -/
theorem exec_start_runs {i : Instr} {k : Kind} {s : State} (h : startsKind i = some k) (hl : s.calLoaded = true)
    (ho : seqOf s (otherKind k) = .idle) : ∃ t, exec i s = .next t := by
  obtain ⟨cmd, w, e⟩ := exec_start s h
  exact ⟨_, e.trans (unlessRefused_runs _ hl ho)⟩

/-- Settles O44: LOAD and CLASSIFY answer everywhere, a start where it is not refused, and a READ that is not refused
finds the coefficients that the invariant promises a loaded block. -/
theorem unrefusedOperationsComplete : Obligations.UnrefusedOperationsComplete := by
  intro i s hs hallowed
  cases i with
  | load | classify => exact ⟨_, rfl⟩
  | startT | startP | cmdTemperature | cmdPressureOss0 | cmdPressureOss1 | cmdPressureOss2 | cmdPressureOss3 =>
    obtain ⟨hl, ho⟩ := hallowed _ (.inl rfl)
    exact exec_start_runs rfl hl ho
  | readT =>
    obtain ⟨hl, hp⟩ := hallowed .T (.inr rfl)
    obtain ⟨c, hc⟩ := hs.coef_of_loaded hl
    exact ⟨_, execReadT_runs hl hp hc⟩
  | readP tIn =>
    obtain ⟨hl, ht⟩ := hallowed .P (.inr rfl)
    obtain ⟨c, hc⟩ := hs.coef_of_loaded hl
    exact ⟨_, execReadP_runs tIn hl ht hc⟩

end Sys2Proof.Machine

/-! # Proofs of the statements about reset and runs (spec/70_reset_and_hazards.md) -/

namespace Sys2Proof.Machine

/-- A reset that is the host's next input is applied to the block, with the later inputs left pending (R190). -/
theorem step_reset {s : State} {rest : List HostInput} (h : s.inputs = .reset :: rest) :
    step s = .next (applyReset { s with inputs := rest }) :=
  step_input h

/-- The host's inputs and the bus's answers are free in the invariant: whatever they are, it holds at the start of a
run from reset (R204). -/
theorem consistent_reset_with (inputs : List HostInput) (answers : List Answer) :
    Consistent { State.reset with inputs := inputs, bus := { answers := answers, trace := [] } } :=
  (consistent_reset.withBus (bus := ⟨answers, []⟩) (List.forall_mem_nil _)).withInputs inputs

/-- Settles O43: the invariant holds at reset with any inputs and answers, and every step keeps it. -/
theorem runsFromResetKeepInvariant : Obligations.RunsFromResetKeepInvariant :=
  fun n inputs answers t h =>
    run_keeps (M := core) stepKeepsInvariant n _ t (consistent_reset_with inputs answers) h

/-- Settles O12: the step is `applyReset`, which takes the block's fields from the reset state and keeps the bus and
the later inputs. -/
theorem resetInputRestoresResetValues : Obligations.ResetInputRestoresResetValues :=
  fun s rest h => ⟨applyReset { s with inputs := rest }, step_reset h,
    rfl, rfl, rfl, rfl, rfl, rfl, rfl, applyReset_bus _, applyReset_inputs _⟩

end Sys2Proof.Machine
